-- ==== Sys2Proof/Word.lean ====
section
/-! DEFINITION. The words NGAP computes with and the two small fixed arrays it uses.
Rules: `00_scope.md` R10 (notation), `30_encoding.md` R90 (FX), R93 (PCM16), R94 (protocol word). -/
namespace Sys2Proof

/-- One byte of the harness's operation stream. -/
abbrev Byte := BitVec 8

/-- A `u32`: a random word, a protocol word (R94), a word of buffer memory (R62). -/
abbrev Word := BitVec 32

/-- A fixed-point value Q16.16 by its raw word (R90); its signed integer is `BitVec.toInt`. -/
abbrev FX := BitVec 32

/-- A signed 16-bit channel sample, PCM16 (R93). -/
abbrev Pcm := BitVec 16

/-- An array of three (the buffers of R25, `OWNER` of R26, `X_HIST` of R23). -/
structure Three (α : Type) where
  e0 : α
  e1 : α
  e2 : α
  deriving DecidableEq, Repr

/-- An array of two (the slots of R27, `Y_HIST` of R23). -/
structure Two (α : Type) where
  e0 : α
  e1 : α
  deriving DecidableEq, Repr

/-- The entry at an index of an array of three. -/
def Three.get {α : Type} (t : Three α) : Fin 3 → α
  | 0 => t.e0
  | 1 => t.e1
  | 2 => t.e2

/-- The array of three with one entry replaced. -/
def Three.set {α : Type} (t : Three α) (i : Fin 3) (v : α) : Three α :=
  match i with
  | 0 => { t with e0 := v }
  | 1 => { t with e1 := v }
  | 2 => { t with e2 := v }

/-- The entry at an index of an array of two. -/
def Two.get {α : Type} (t : Two α) : Fin 2 → α
  | 0 => t.e0
  | 1 => t.e1

/-- The array of two with one entry replaced. -/
def Two.set {α : Type} (t : Two α) (i : Fin 2) (v : α) : Two α :=
  match i with
  | 0 => { t with e0 := v }
  | 1 => { t with e1 := v }

end Sys2Proof
end

