-- ==== Sys2Proof/Syntax.lean ====
section
/-! DEFINITION. The 29 operations of NGAP with the operands of their formats.
Rules: `30_encoding.md` R98 (the table of identifiers), R102 (operand formats); `00_scope.md` R8 (what an operation is). -/
namespace Sys2Proof

/-- A buffer number, one of 0, 1, 2 (`20_memory.md` R61; a buffer number 3 is refused as an operand, R99 and V5). -/
abbrev BufId := Fin 3

/-- The operations by name, one per row of R98; also what `STATUS.FAULT_OP` records (R97). -/
inductive OpId where
  | fxadd | fxsub | fxneg | fxmul | fxmac | fxmsub
  | rngseed | rngnext | white | brown
  | bqclr | bqpushx | bqpushy | bqcomp
  | q15 | pack | sample | bufwr | fill
  | dstart | disdone | dnext | dwait | dxfer | kick
  | schstep
  | sqtick | divcalc
  | reset
  deriving DecidableEq, Repr

/-- An operation with its operands (R102). The three operands of `DIVCALC` are "three positive integers": positive by type. -/
inductive Instr where
  | fxadd (a b : FX)
  | fxsub (a b : FX)
  | fxneg (a : FX)
  | fxmul (a b : FX)
  | fxmac (acc a b : FX)
  | fxmsub (acc a b : FX)
  | rngseed (seed : BitVec 64)
  | rngnext
  | white (r : Word)
  | brown (w : FX)
  | bqclr
  | bqpushx (x : FX)
  | bqpushy (y : FX)
  | bqcomp (x : FX)
  | q15 (y : FX)
  | pack (y : FX)
  | sample
  | bufwr (b : BufId) (i : Nat) (v : Word)
  | fill (b : BufId)
  | dstart (b : BufId)
  | disdone
  | dnext (b : BufId)
  | dwait
  | dxfer
  | kick
  | schstep
  | sqtick
  | divcalc (baseHz cyclesPerBit bclkHz : ℕ+)
  | reset
  deriving DecidableEq, Repr

/-- The name of an operation. -/
def Instr.opId : Instr → OpId
  | .fxadd _ _ => .fxadd
  | .fxsub _ _ => .fxsub
  | .fxneg _ => .fxneg
  | .fxmul _ _ => .fxmul
  | .fxmac _ _ _ => .fxmac
  | .fxmsub _ _ _ => .fxmsub
  | .rngseed _ => .rngseed
  | .rngnext => .rngnext
  | .white _ => .white
  | .brown _ => .brown
  | .bqclr => .bqclr
  | .bqpushx _ => .bqpushx
  | .bqpushy _ => .bqpushy
  | .bqcomp _ => .bqcomp
  | .q15 _ => .q15
  | .pack _ => .pack
  | .sample => .sample
  | .bufwr _ _ _ => .bufwr
  | .fill _ => .fill
  | .dstart _ => .dstart
  | .disdone => .disdone
  | .dnext _ => .dnext
  | .dwait => .dwait
  | .dxfer => .dxfer
  | .kick => .kick
  | .schstep => .schstep
  | .sqtick => .sqtick
  | .divcalc _ _ _ => .divcalc
  | .reset => .reset

/-- Every operation name, in the order of the table R98. -/
def OpId.all : List OpId :=
  [.fxadd, .fxsub, .fxneg, .fxmul, .fxmac, .fxmsub,
   .rngseed, .rngnext, .white, .brown,
   .bqclr, .bqpushx, .bqpushy, .bqcomp,
   .q15, .pack, .sample, .bufwr, .fill,
   .dstart, .disdone, .dnext, .dwait, .dxfer, .kick,
   .schstep, .sqtick, .divcalc, .reset]

/-- The shorthand `FRAME` of the trace syntax (R101): 64 consecutive `SQTICK` steps. -/
def Instr.frame : List Instr := List.replicate 64 .sqtick

end Sys2Proof
end

