-- ==== Sys2Proof/Config.lean ====
section
/-! DEFINITION. The parameters of NGAP (`00_scope.md` R6), the configuration record a run fixes (`70_reset_and_hazards.md`
R312), and the free values of what the spec leaves open. -/
namespace Sys2Proof

/-- Number of buffers: three, fixed (R6, conflict C1). -/
def numBuffers : Nat := 3
/-- Width of a fixed-point value, fixed (R6). -/
def fxBits : Nat := 32
/-- Fractional bits of a fixed-point value, fixed (R6). -/
def fxFrac : Nat := 16
/-- Bits per protocol word, fixed (R6). -/
def wordBits : Nat := 32
/-- Bits per channel sample on the wire, fixed (R6). -/
def chBits : Nat := 16

/-- Which random source is fitted (R140: the source is a parameter). -/
inductive RngKind where
  /-- the reference instance XS64 of R142 -/
  | xs64
  /-- any other source: the uninterpreted functions `Config.otherRngInit`, `Config.otherRngNext` -/
  | other
  deriving DecidableEq, Repr

/-- What the two channels of a protocol word carry (R6); `duplicate` is the only value the spec lists (U15). -/
inductive MonoMode where
  /-- both channels carry the same sample (R94, R181) -/
  | duplicate
  deriving DecidableEq, Repr

/-- The configuration record (R312): what the HOST fixes before reset is released (R300). `BUF_WORDS` and `FIFO_DEPTH` are
positive by type (R286). `CYCLES_PER_BIT` fixes the ratios and the divisor the HOST computes; the tick of R252 does not read it
(DESIGN CHOICE, log 21). -/
structure Config where
  bufWords  : ℕ+
  fifoDepth : ℕ+
  cyclesPerBit : ℕ+
  monoMode  : MonoMode
  rng       : RngKind
  seed      : BitVec 64
  cB0       : FX
  cB1       : FX
  cB2       : FX
  cA1       : FX
  cA2       : FX
  cLeak     : FX
  cStep     : FX
  cBound    : FX
  cVol      : FX
  clkdiv    : BitVec 32
  deriving DecidableEq, Repr

/-- The default configuration: the defaults of R6 and R91. DESIGN CHOICE, unsafe (log 7): `RNG`, `SEED` and `CLKDIV` are OPEN in
R6; the values are those the test vectors use. -/
def Config.default : Config where
  bufWords  := 220
  fifoDepth := 4
  cyclesPerBit := 2
  monoMode  := .duplicate
  rng       := .xs64
  seed      := 0xFEEDBEEFFEEDBEEF
  cB0       := 0x00000110
  cB1       := 0x00000000
  cB2       := 0xFFFFFEF0
  cA1       := 0xFFFE023A
  cA2       := 0x0000FDE1
  cLeak     := 0x0000FF3B
  cStep     := 0x0000028F
  cBound    := 0x00004000
  cVol      := 0x00004000
  clkdiv    := 0x002C4A00

/-- `TICKS_PER_FRAME`, the sequencer ticks per stereo frame (R6, R256, conflict C2). -/
def Config.ticksPerFrame (c : Config) : Nat := wordBits * c.cyclesPerBit

/-- The nine constants have the default raw values of R91 (a premise of the properties R146, R148). -/
def Config.DefaultConstants (c : Config) : Prop :=
  c.cB0 = Config.default.cB0 ∧ c.cB1 = Config.default.cB1 ∧ c.cB2 = Config.default.cB2 ∧
  c.cA1 = Config.default.cA1 ∧ c.cA2 = Config.default.cA2 ∧ c.cLeak = Config.default.cLeak ∧
  c.cStep = Config.default.cStep ∧ c.cBound = Config.default.cBound ∧ c.cVol = Config.default.cVol

/-- Free value: the contents a reset leaves in word `i` of buffer `b`, a `draw` (R25, R311), a new one at each reset. Log 6. -/
opaque Config.bufDraw (resets : Nat) (b : BufId) (i : Nat) : Word

/-- Free value: the choice among the enabled agents at a scheduling point (R296). Log 5. -/
opaque Config.schedule (choices : Nat) : Nat

/-- Free value: `rng_init` of a random source that is not XS64, its state type numbered by natural numbers (R140). Log 8. -/
opaque Config.otherRngInit (seed : BitVec 64) : Nat

/-- Free value: `rng_next` of a random source that is not XS64 (R140). Log 8. -/
opaque Config.otherRngNext (state : Nat) : Nat × Word

end Sys2Proof
end

