-- ==== Sys2Proof/WellFormed.lean ====
section
/-! DEFINITION. Which operations are well-formed: the operand values the formats of R102 admit in a machine of a given
configuration, and the values the operation stream (log 1) can carry. -/
namespace Sys2Proof

/-- The operands fit the fields of the operation stream (log 1): the word index of `BUFWR` in 32 bits, each operand of
`DIVCALC` at most 2^64. Every other operand type is exactly its field. -/
def Instr.encodable : Instr → Bool
  | .bufwr _ i _ => decide (i < 2 ^ 32)
  | .divcalc p q r => decide ((p : Nat) ≤ 2 ^ 64) && decide ((q : Nat) ≤ 2 ^ 64) && decide ((r : Nat) ≤ 2 ^ 64)
  | _ => true

/-- The address of `BUFWR` exists: its index is in [0, N-1] (`20_memory.md` R61, V7). -/
def Instr.inRange (c : Config) : Instr → Bool
  | .bufwr _ i _ => decide (i < c.bufWords)
  | _ => true

/-- An operation a harness may issue to a machine of configuration `c`. -/
def Instr.wellFormed (c : Config) (i : Instr) : Bool := i.encodable && i.inRange c

end Sys2Proof
end

