-- ==== Sys2Proof/Decode.lean ====
section
/-! DEFINITION. The operation stream: decoder and encoder.
`30_encoding.md` R98 gives every operation an 8-bit identifier and R102 says its operands are values passed beside it, with
no encoded fields. DESIGN CHOICE, unsafe (log 1): the stream writes the identifier byte and after it the operands in the order
of the format, each least significant byte first: FX and words in 4 bytes, a seed in 8, a buffer number in 1, a word index in
4, an operand of `DIVCALC` as its value less one in 8. -/
namespace Sys2Proof

/-- The identifier of an operation (R98). -/
def OpId.code : OpId → Byte
  | .fxadd => 0x01
  | .fxsub => 0x02
  | .fxneg => 0x03
  | .fxmul => 0x04
  | .fxmac => 0x05
  | .fxmsub => 0x06
  | .rngseed => 0x10
  | .rngnext => 0x11
  | .white => 0x12
  | .brown => 0x13
  | .bqclr => 0x20
  | .bqpushx => 0x21
  | .bqpushy => 0x22
  | .bqcomp => 0x23
  | .q15 => 0x30
  | .pack => 0x31
  | .sample => 0x32
  | .bufwr => 0x33
  | .fill => 0x34
  | .dstart => 0x40
  | .disdone => 0x41
  | .dnext => 0x42
  | .dwait => 0x43
  | .dxfer => 0x44
  | .kick => 0x45
  | .schstep => 0x50
  | .sqtick => 0x60
  | .divcalc => 0x61
  | .reset => 0x70

/-- The operation an identifier names; none for an identifier not in R98 (R100 a). -/
def OpId.ofCode (c : Byte) : Option OpId := OpId.all.find? (fun o => o.code == c)

/-- Why a stream does not begin with an operation. -/
inductive DecodeError where
  /-- the first byte is no identifier of R98 (R100 a, V1) -/
  | unknownIdentifier
  /-- an operand names a buffer other than 0, 1, 2 (R99, V5, V7) -/
  | noSuchBuffer
  /-- the stream ends inside an operation -/
  | truncated
  deriving DecidableEq, Repr

/-- A number in `n` bytes, the least significant first. -/
def writeLE : Nat → Nat → List Byte
  | 0, _ => []
  | n + 1, v => BitVec.ofNat 8 v :: writeLE n (v / 256)

/-- The number in the first `n` bytes, the least significant first, and the rest of the stream. -/
def readLE : Nat → List Byte → Except DecodeError (Nat × List Byte)
  | 0, bs => .ok (0, bs)
  | _ + 1, [] => .error .truncated
  | n + 1, b :: bs =>
    match readLE n bs with
    | .ok (v, rest) => .ok (b.toNat + 256 * v, rest)
    | .error e => .error e

/-- An FX operand or a u32. -/
def readWord (bs : List Byte) : Except DecodeError (Word × List Byte) :=
  match readLE 4 bs with
  | .ok (v, rest) => .ok (BitVec.ofNat 32 v, rest)
  | .error e => .error e

/-- A seed. -/
def readSeed (bs : List Byte) : Except DecodeError (BitVec 64 × List Byte) :=
  match readLE 8 bs with
  | .ok (v, rest) => .ok (BitVec.ofNat 64 v, rest)
  | .error e => .error e

/-- A positive integer, held as its value less one. -/
def readPos (bs : List Byte) : Except DecodeError (ℕ+ × List Byte) :=
  match readLE 8 bs with
  | .ok (v, rest) => .ok (Nat.succPNat v, rest)
  | .error e => .error e

/-- A buffer number; any other byte is refused (V7). -/
def readBuf : List Byte → Except DecodeError (BufId × List Byte)
  | [] => .error .truncated
  | b :: rest =>
    if h : b.toNat < 3 then .ok (⟨b.toNat, h⟩, rest) else .error .noSuchBuffer

/-- The operands of an operation (R102), read after its identifier. -/
def decodeOperands (bs : List Byte) : OpId → Except DecodeError (Instr × List Byte)
  | .fxadd => do let (a, r) ← readWord bs; let (b, r) ← readWord r; .ok (.fxadd a b, r)
  | .fxsub => do let (a, r) ← readWord bs; let (b, r) ← readWord r; .ok (.fxsub a b, r)
  | .fxneg => do let (a, r) ← readWord bs; .ok (.fxneg a, r)
  | .fxmul => do let (a, r) ← readWord bs; let (b, r) ← readWord r; .ok (.fxmul a b, r)
  | .fxmac => do
      let (c, r) ← readWord bs; let (a, r) ← readWord r; let (b, r) ← readWord r; .ok (.fxmac c a b, r)
  | .fxmsub => do
      let (c, r) ← readWord bs; let (a, r) ← readWord r; let (b, r) ← readWord r; .ok (.fxmsub c a b, r)
  | .rngseed => do let (v, r) ← readSeed bs; .ok (.rngseed v, r)
  | .rngnext => .ok (.rngnext, bs)
  | .white => do let (v, r) ← readWord bs; .ok (.white v, r)
  | .brown => do let (v, r) ← readWord bs; .ok (.brown v, r)
  | .bqclr => .ok (.bqclr, bs)
  | .bqpushx => do let (v, r) ← readWord bs; .ok (.bqpushx v, r)
  | .bqpushy => do let (v, r) ← readWord bs; .ok (.bqpushy v, r)
  | .bqcomp => do let (v, r) ← readWord bs; .ok (.bqcomp v, r)
  | .q15 => do let (v, r) ← readWord bs; .ok (.q15 v, r)
  | .pack => do let (v, r) ← readWord bs; .ok (.pack v, r)
  | .sample => .ok (.sample, bs)
  | .bufwr => do
      let (b, r) ← readBuf bs; let (i, r) ← readLE 4 r; let (v, r) ← readWord r; .ok (.bufwr b i v, r)
  | .fill => do let (b, r) ← readBuf bs; .ok (.fill b, r)
  | .dstart => do let (b, r) ← readBuf bs; .ok (.dstart b, r)
  | .disdone => .ok (.disdone, bs)
  | .dnext => do let (b, r) ← readBuf bs; .ok (.dnext b, r)
  | .dwait => .ok (.dwait, bs)
  | .dxfer => .ok (.dxfer, bs)
  | .kick => .ok (.kick, bs)
  | .schstep => .ok (.schstep, bs)
  | .sqtick => .ok (.sqtick, bs)
  | .divcalc => do
      let (p, r) ← readPos bs; let (q, r) ← readPos r; let (k, r) ← readPos r; .ok (.divcalc p q k, r)
  | .reset => .ok (.reset, bs)

/-- The operation at the head of a stream and the rest of the stream. Total: every stream decodes or is refused by name. -/
def decode : List Byte → Except DecodeError (Instr × List Byte)
  | [] => .error .truncated
  | c :: bs =>
    match OpId.ofCode c with
    | some o => decodeOperands bs o
    | none => .error .unknownIdentifier

/-- The operand bytes of an operation. -/
def encodeOperands : Instr → List Byte
  | .fxadd a b => writeLE 4 a.toNat ++ writeLE 4 b.toNat
  | .fxsub a b => writeLE 4 a.toNat ++ writeLE 4 b.toNat
  | .fxneg a => writeLE 4 a.toNat
  | .fxmul a b => writeLE 4 a.toNat ++ writeLE 4 b.toNat
  | .fxmac c a b => writeLE 4 c.toNat ++ writeLE 4 a.toNat ++ writeLE 4 b.toNat
  | .fxmsub c a b => writeLE 4 c.toNat ++ writeLE 4 a.toNat ++ writeLE 4 b.toNat
  | .rngseed v => writeLE 8 v.toNat
  | .rngnext => []
  | .white v => writeLE 4 v.toNat
  | .brown v => writeLE 4 v.toNat
  | .bqclr => []
  | .bqpushx v => writeLE 4 v.toNat
  | .bqpushy v => writeLE 4 v.toNat
  | .bqcomp v => writeLE 4 v.toNat
  | .q15 v => writeLE 4 v.toNat
  | .pack v => writeLE 4 v.toNat
  | .sample => []
  | .bufwr b i v => writeLE 1 b.val ++ writeLE 4 i ++ writeLE 4 v.toNat
  | .fill b => writeLE 1 b.val
  | .dstart b => writeLE 1 b.val
  | .disdone => []
  | .dnext b => writeLE 1 b.val
  | .dwait => []
  | .dxfer => []
  | .kick => []
  | .schstep => []
  | .sqtick => []
  | .divcalc p q k => writeLE 8 (p - 1 : Nat) ++ writeLE 8 (q - 1 : Nat) ++ writeLE 8 (k - 1 : Nat)
  | .reset => []

/-- The bytes of an operation in the stream: its identifier (R98), then its operands. -/
def encode (i : Instr) : List Byte := i.opId.code :: encodeOperands i

/-- The length of the longest operation in bytes (`DIVCALC`). -/
def maxOpBytes : Nat := 25

/-- The stream of a word of the opcode table: its low `nbits` bits, first byte lowest, every bit above them 0, up to the
longest operation. -/
def tableBytes (nbits w : Nat) : List Byte := writeLE maxOpBytes (w % 2 ^ nbits)

/-- The operation the decoder reads from an opcode table word. -/
def decodeTableWord (nbits w : Nat) : Option Instr :=
  match decode (tableBytes nbits w) with
  | .ok (i, _) => some i
  | .error _ => none

end Sys2Proof
end

