-- ==== Sys2Proof/Machine/State.lean ====
section
/-! DEFINITION. The state of NGAP, all of it (`10_state.md`), the reasons a step can stop, and the state after reset.
The fields of the model that are no registers of NGAP stand last and are marked. -/
namespace Sys2Proof.Machine

open Sys2Proof

/-- The state of the random source, of the type its `RNG` parameter defines (R21): a u64 for XS64, a number for another
source (log 8). -/
inductive RngState where
  | xs64 (s : BitVec 64)
  | other (s : Nat)
  deriving DecidableEq, Repr

/-- FilterState (R23): two circular histories and their write cursors. -/
structure FilterState where
  xHist : Three FX
  xCur  : Fin 3
  yHist : Two FX
  yCur  : Fin 2
  deriving DecidableEq, Repr

/-- Who owns a buffer (R26): the producer or the engine. -/
inductive Owner where
  | P
  | E
  deriving DecidableEq, Repr

/-- The states of a TransferSlot (R27). -/
inductive SlotSt where
  | idle
  | running
  | done
  deriving DecidableEq, Repr

/-- A TransferSlot (R27); `buf = none` is NONE. Idle with a buffer is armed, idle without one is empty. -/
structure Slot where
  st  : SlotSt
  buf : Option BufId
  idx : Nat
  deriving DecidableEq, Repr

/-- The registers of the sequencer (R29); `phase` and `started` are bits, true is 1. -/
structure Sequencer where
  osr     : Word
  bitcnt  : Fin 32
  phase   : Bool
  started : Bool
  deriving DecidableEq, Repr

/-- The output wires (R30); true is the level 1. -/
structure Wires where
  sd   : Bool
  bclk : Bool
  ws   : Bool
  deriving DecidableEq, Repr

/-- The fields of `STATUS` (R32); its 32-bit layout is `Status.toWord` in `Machine/Flags.lean`. -/
structure Status where
  fault    : BitVec 4
  faultOp  : BitVec 8
  underrun : Bool
  clip     : Bool
  deriving DecidableEq, Repr

/-- The ten states of the scheduler (R230). -/
inductive Sch where
  | primeFill0 | primeStart | primeFill1 | primeNext1 | primeFill2 | primeWait | primeNext2
  | runPoll | runFill | runNext
  deriving DecidableEq, Repr

/-- The sequencing registers of the PRODUCER (R33); `free = none` is NONE. -/
structure Sched where
  sch   : Sch
  fillI : Nat
  free  : Option BufId
  deriving DecidableEq, Repr

/-- The causes of a fault (`60_exceptions.md` R282). -/
inductive Cause where
  | arithOverflow
  | ownershipViolation
  | protocolViolation
  | configReserved
  deriving DecidableEq, Repr

/-- What an operation hands its caller (R102: "none, or the value the rule names"), how a trace (R101) shows it. The model's
observation port, no state of NGAP (log 3). -/
inductive OpResult where
  /-- nothing -/
  | unit
  /-- an FX value -/
  | fx (v : FX)
  /-- a PCM16 value -/
  | pcm (v : Pcm)
  /-- a u32: a random word, a protocol word, a `CLKDIV` word -/
  | word (v : Word)
  /-- a Boolean -/
  | flag (v : Bool)
  /-- a buffer number or NONE -/
  | buffer (v : Option BufId)
  /-- the step was not enabled and nothing changed (`hold`, R11) -/
  | held
  /-- the operation raised a fault (`!Name`) -/
  | fault (c : Cause)
  deriving DecidableEq, Repr

/-- One buffer: the words written since reset, by index, strictly rising; a word not listed has not been written since reset
and holds the `draw` of R25 (log 6, 9). -/
abbrev Memory := List (Nat × Word)

/-- The canonical form of a buffer: indices strictly rising. An index not listed reads as `none`, which no entry is. -/
def Memory.wf : Memory → Bool
  | [] => true
  | [_] => true
  | (a, _) :: (b, w) :: m => decide (a < b) && Memory.wf ((b, w) :: m)

/-- Every index listed is an address of a buffer of `n` words (R61). -/
def Memory.within (n : Nat) (m : Memory) : Bool := m.all (fun p => decide (p.1 < n))

/-- The state of NGAP. -/
structure State where
  /-- the configuration (R312): the nine constant registers (R24), `CLKDIV` (R31), `SEED`, `RNG`, `BUF_WORDS`, `FIFO_DEPTH` -/
  cfg        : Config
  /-- `RNG_STATE` (R21) -/
  rngState   : RngState
  /-- `NOISE_STATE` (R22) -/
  noiseState : FX
  /-- FilterState (R23) -/
  filt       : FilterState
  /-- `BUF[0..2]` (R25) -/
  buf        : Three Memory
  /-- `OWNER[0..2]` (R26) -/
  owner      : Three Owner
  /-- `SLOT[0..1]` (R27) -/
  slot       : Two Slot
  /-- `HEAD` (R27) -/
  head       : Fin 2
  /-- `CNT` (R27) -/
  cnt        : Fin 3
  /-- `FIFO` (R28), the head first -/
  fifo       : List Word
  /-- `OSR`, `BITCNT`, `PHASE`, `STARTED` (R29) -/
  seq        : Sequencer
  /-- `SD`, `BCLK`, `WS` (R30) -/
  wires      : Wires
  /-- `STATUS` (R32) -/
  status     : Status
  /-- `SCH`, `FILL_I`, `FREE` (R33) -/
  sched      : Sched
  /-- `WIRE_LOG` (R34), ghost: pairs (WS, SD), oldest first -/
  wireLog    : List (Bool × Bool)
  /-- `GEN_COUNT` (R34), ghost -/
  genCount   : Nat
  /-- MODEL (log 1, 2): the operations the harness or the HOST will issue, as bytes -/
  program    : List Byte
  /-- MODEL (log 3): what the last operation handed its caller -/
  result     : OpResult
  /-- MODEL (log 5): how many scheduling choices have been made -/
  choices    : Nat
  /-- MODEL (log 6): how many `RESET` operations have been performed -/
  resetCount : Nat
  deriving DecidableEq, Repr

/-- Why the machine stops. A fault of NGAP (`60_exceptions.md` R280) is no stop: it is recorded in `STATUS` and the machine goes on;
these two are accesses that no state satisfying the engine and scheduler invariants makes. -/
inductive Fault where
  /-- `DXFER` or `SCHSTEP` is to use the buffer a register names and the register holds NONE: no such buffer exists (R61).
  Raised by `execDxfer` and `execSchstep`; safe: the model stops where the spec gives no effect (log 11). -/
  | noSuchBuffer
  /-- `DXFER` or `SCHSTEP` is to access a word index outside [0, N-1]: no such address exists (R61).
  Raised by `execDxfer` and `execSchstep`; safe (log 11). -/
  | noSuchIndex
  deriving DecidableEq, Repr

/-- Why an operation has no meaning. -/
inductive Refusal where
  /-- an arm of `exec` that has no meaning yet; no arm uses it. Safe. -/
  | notModelled (mnemonic : String)
  /-- the stream's next byte names no operation (R100 a, V1: refuse). Raised by `step`; safe. -/
  | unknownIdentifier
  /-- an operand of the stream is no buffer number (R99, V5, V7: refuse). Raised by `step`; safe. -/
  | noSuchBuffer
  /-- the stream ends inside an operation, so it holds none. Raised by `step`; safe. -/
  | truncated
  /-- `BUFWR` from a harness with an index outside [0, N-1] (R61, V7: refuse). Raised by `execBufwr`; safe. -/
  | noSuchIndex
  deriving DecidableEq, Repr

/-- An empty slot (R27, R36). -/
def Slot.empty : Slot := ⟨.idle, none, 0⟩

/-- The fresh filter (R23, R36, R161). -/
def FilterState.clear : FilterState := ⟨⟨0, 0, 0⟩, 0, ⟨0, 0⟩, 0⟩

/-- The machine right after reset in the default configuration: the table of R36. `RNG_STATE` is `rng_init(SEED)` under XS64. -/
def State.reset : State where
  cfg        := Config.default
  rngState   := .xs64 0xFEEDBEEFFEEDBEEF
  noiseState := 0
  filt       := FilterState.clear
  buf        := ⟨[], [], []⟩
  owner      := ⟨.P, .P, .P⟩
  slot       := ⟨Slot.empty, Slot.empty⟩
  head       := 0
  cnt        := 0
  fifo       := []
  seq        := ⟨0, 0, false, false⟩
  wires      := ⟨false, false, false⟩
  status     := ⟨0, 0, false, false⟩
  sched      := ⟨.primeFill0, 0, none⟩
  wireLog    := []
  genCount   := 0
  program    := []
  result     := .unit
  choices    := 0
  resetCount := 0

end Sys2Proof.Machine
end

