-- ==== Sys2Proof/Machine/Operands.lean ====
section
/-! DEFINITION. The values operations compute with: fixed-point arithmetic (`40_fixed_point.md`), the fields of the data formats
(`30_encoding.md` R90 to R96, R103) and the numbers of the enumerated states (R99). -/
namespace Sys2Proof.Machine

open Sys2Proof

/-- The FX value of an exact integer; none when it is outside [-2^31, 2^31-1] (R127: never wraps, never saturates). -/
def fxOfInt (v : Int) : Option FX :=
  if -2147483648 ≤ v ∧ v ≤ 2147483647 then some (BitVec.ofInt 32 v) else none

/-- `FXADD` on values (R120): the exact sum, none on overflow. -/
def fxAdd (a b : FX) : Option FX := fxOfInt (a.toInt + b.toInt)

/-- `FXSUB` on values (R121). -/
def fxSub (a b : FX) : Option FX := fxOfInt (a.toInt - b.toInt)

/-- `FXNEG` on values (R122). -/
def fxNeg (a : FX) : Option FX := fxOfInt (-a.toInt)

/-- `FXMUL` on values (R123): the exact product, shifted right arithmetically by 16 (division by 65536 rounds toward minus
infinity), none on overflow. -/
def fxMul (a b : FX) : Option FX := fxOfInt (a.toInt * b.toInt / 65536)

/-- `FXMAC` on values (R124): the product is rounded before it is added. -/
def fxMac (acc a b : FX) : Option FX := do
  let m ← fxMul a b
  fxAdd acc m

/-- `FXMSUB` on values (R125): the rounded product is subtracted. -/
def fxMsub (acc a b : FX) : Option FX := do
  let m ← fxMul a b
  fxSub acc m

/-- Field `SIGN` of a random word, bit 31 (R92). -/
def randSign (r : Word) : Bool := r.getLsbD 31

/-- Field `MAG` of a random word, bits 15:0, zero-extended to an FX value (R92, R144); bits 30:16 are ignored. -/
def randMag (r : Word) : FX := (r.extractLsb' 0 16).setWidth 32

/-- `WHITE` on values (R144). The negation is `FXNEG`, which never faults here (`white_negation_is_fxNeg` in Laws). -/
def whiteSample (r : Word) : FX := if randSign r then -(randMag r) else randMag r

/-- `Q15` on values (R180): the PCM16 sample and whether it was saturated. -/
def q15 (y : FX) : Pcm × Bool :=
  let v0 := y.toInt / 2
  if v0 > 32767 then (BitVec.ofInt 16 32767, true)
  else if v0 < -32768 then (BitVec.ofInt 16 (-32768), true)
  else (BitVec.ofInt 16 v0, false)

/-- The protocol word of one mono sample (R94, R181): with `MONO_MODE` duplicate the same PCM16 value in `CHA`, bits 31:16, and
`CHB`, bits 15:0. -/
def packWord (m : MonoMode) (h : Pcm) : Word :=
  match m with
  | .duplicate => h ++ h

/-- Field `CHA` of a protocol word (R94). -/
def channelA (w : Word) : Pcm := w.extractLsb' 16 16

/-- Field `CHB` of a protocol word (R94). -/
def channelB (w : Word) : Pcm := w.extractLsb' 0 16

/-- Field `INT` of a `CLKDIV` word (R96). -/
def clkInt (w : BitVec 32) : BitVec 16 := w.extractLsb' 16 16

/-- Field `FRAC` of a `CLKDIV` word (R96). -/
def clkFrac (w : BitVec 32) : BitVec 8 := w.extractLsb' 8 8

/-- The reserved bits 7:0 of a `CLKDIV` word (R96). -/
def clkReserved (w : BitVec 32) : BitVec 8 := w.extractLsb' 0 8

/-- A `CLKDIV` word is a reserved configuration (R100 b): `INT = 0` or reserved bits not zero. -/
def clkdivReserved (w : BitVec 32) : Bool := decide (clkInt w = 0) || decide (clkReserved w ≠ 0)

/-- `DIVCALC` on values (R257): 256·base/den rounded to nearest, ties up, packed as R96; none when `INT` is 0 or above 65535. -/
def divCalc (baseHz cyclesPerBit bclkHz : ℕ+) : Option Word :=
  let den : Nat := cyclesPerBit * bclkHz
  let raw : Nat := (2 * 256 * baseHz + den) / (2 * den)
  let int := raw / 256
  let frac := raw % 256
  if int = 0 ∨ int > 65535 then none else some (BitVec.ofNat 32 (int * 65536 + frac * 256))

/-- The target bit clock of a sample frequency, `bclk_hz = 32 × FS_HZ` (R256, R257). -/
def bclkOfSampleRate (fsHz : ℕ+) : ℕ+ := 32 * fsHz

/-- The divisor the HOST computes for configuration `c` from `BASE_CLOCK_HZ` and `FS_HZ` (R6, R257): `DIVCALC` with the
configured `CYCLES_PER_BIT` and the bit clock of the sample frequency. -/
def clkdivFor (c : Config) (baseHz fsHz : ℕ+) : Option Word :=
  divCalc baseHz c.cyclesPerBit (bclkOfSampleRate fsHz)

/-- Quantisation of the decimal constant `num/den` to a raw FX integer (R103): nearest, a tie to the even integer. -/
def quantise (num : Int) (den : ℕ+) : Int :=
  let q := num * 65536 / (den : Int)
  let r := num * 65536 % (den : Int)
  if 2 * r < den then q
  else if 2 * r > den then q + 1
  else if q % 2 = 0 then q else q + 1

/-- The number of a slot state (R99). -/
def SlotSt.number : SlotSt → Nat
  | .idle => 0
  | .running => 1
  | .done => 2

/-- The number of a buffer binding (R99): NONE is 3. -/
def bindingNumber : Option BufId → Nat
  | none => 3
  | some b => b.val

/-- The number of an owner (R99). -/
def Owner.number : Owner → Nat
  | .P => 0
  | .E => 1

/-- The number of a scheduler state (R99). -/
def Sch.number : Sch → Nat
  | .primeFill0 => 0
  | .primeStart => 1
  | .primeFill1 => 2
  | .primeNext1 => 3
  | .primeFill2 => 4
  | .primeWait => 5
  | .primeNext2 => 6
  | .runPoll => 7
  | .runFill => 8
  | .runNext => 9

end Sys2Proof.Machine
end

