-- ==== Sys2Proof/Machine/Flags.lean ====
section
/-! DEFINITION. The `STATUS` register: its layout (`30_encoding.md` R97), its sticky bits (`10_state.md` R32) and the record of a
fault (`60_exceptions.md` R281, R282). -/
namespace Sys2Proof.Machine

open Sys2Proof

/-- The code of a fault cause (R97, R282). -/
def Cause.code : Cause → BitVec 4
  | .arithOverflow => 1
  | .ownershipViolation => 2
  | .protocolViolation => 3
  | .configReserved => 4

/-- `STATUS` as a 32-bit word (R97): FAULT 3:0, FAULT_OP 11:4, UNDERRUN 12, CLIP 13, the rest reads as zero. -/
def Status.toWord (s : Status) : BitVec 32 :=
  (0 : BitVec 18) ++ BitVec.ofBool s.clip ++ BitVec.ofBool s.underrun ++ s.faultOp ++ s.fault

/-- Recording a fault (R281): only the first is recorded. -/
def Status.record (s : Status) (c : Cause) (o : OpId) : Status :=
  if s.fault = 0 then { s with fault := c.code, faultOp := o.code } else s

/-- `STATUS.CLIP <- 1` when a conversion saturated (R180); never cleared. -/
def Status.withClip (s : Status) (clipped : Bool) : Status := { s with clip := s.clip || clipped }

/-- `STATUS.UNDERRUN <- 1` when the sequencer stalls after its start (R252); never cleared. -/
def Status.withUnderrun (s : Status) (stalled : Bool) : Status := { s with underrun := s.underrun || stalled }

/-- `STATUS` after the configuration checks of reset (R311): the seed first, then `CLKDIV`. -/
def Status.ofConfig (c : Config) : Status :=
  if c.rng = .xs64 ∧ c.seed = 0 then ⟨Cause.configReserved.code, OpId.rngseed.code, false, false⟩
  else if clkdivReserved c.clkdiv then ⟨Cause.configReserved.code, OpId.reset.code, false, false⟩
  else ⟨0, 0, false, false⟩

end Sys2Proof.Machine
end

