-- ==== Sys2Proof/Machine/Ops.lean ====
section
/-! DEFINITION. The operations every meaning is built from: taking a fault and leaving the faulted condition, ending a step,
buffer memory, ownership, the random source's functions, and the engine's `KICK`. -/
namespace Sys2Proof.Machine

open Sys2Proof

/-- The three outcomes of a step of NGAP. -/
abbrev Out := Host.Outcome State Fault Refusal

/-- `raise F(op)` (R11): the cause and the operation that reports it. -/
structure Raise where
  cause : Cause
  op    : OpId
  deriving DecidableEq, Repr

/-- A step ends and hands `r` to its caller. -/
def State.ret (s : State) (r : OpResult) : State := { s with result := r }

/-- Taking a fault (R280, R281, R291): `STATUS` records the first fault with its operation; every other effect of the step is
discarded, so `s` is the state before the step. Nothing is saved, no mode changes, control goes nowhere. -/
def State.takeFault (s : State) (e : Raise) : State :=
  { s with status := s.status.record e.cause e.op, result := .fault e.cause }

/-- `hold` (R11): the step is not enabled and nothing changes. -/
def State.hold (s : State) : Out := .next (s.ret .held)

/-- The end of an operation issued in state `s`: its effect, or the fault it raised. -/
def conclude (s : State) : Except Raise (OpResult × State) → Out
  | .ok (r, t) => .next (t.ret r)
  | .error e => .next (s.takeFault e)

/-- An arithmetic result, or ArithOverflow reported with the identifier of operation `o` (R281, R283). -/
def arith {α : Type} (o : OpId) : Option α → Except Raise α
  | some v => .ok v
  | none => .error ⟨.arithOverflow, o⟩

/-- The word of a buffer that was written since reset; none for a word that was not. -/
def Memory.read : Memory → Nat → Option Word
  | [], _ => none
  | (a, w) :: m, i => if i = a then some w else Memory.read m i

/-- The buffer with one word written, in canonical form. -/
def Memory.write : Memory → Nat → Word → Memory
  | [], i, v => [(i, v)]
  | (a, w) :: m, i, v =>
    if i < a then (i, v) :: (a, w) :: m
    else if i = a then (a, v) :: m
    else (a, w) :: Memory.write m i v

/-- `MemRead((b,i), 4)` (R65): the word of the latest write, or the `draw` of the last reset (R25, a free value, log 6). -/
def State.memRead (s : State) (b : BufId) (i : Nat) : Word :=
  ((s.buf.get b).read i).getD (Config.bufDraw s.resetCount b i)

/-- `MemWrite((b,i), 4, v)` (R66): OwnershipViolation when the engine owns the buffer. -/
def State.memWrite (s : State) (b : BufId) (i : Nat) (v : Word) : Except Raise State :=
  if s.owner.get b = .E then .error ⟨.ownershipViolation, .bufwr⟩
  else .ok { s with buf := s.buf.set b ((s.buf.get b).write i v) }

/-- `OWNER[b] <- o` (R26). -/
def State.setOwner (s : State) (b : BufId) (o : Owner) : State := { s with owner := s.owner.set b o }

/-- `OWNER[old] <- P` for the buffer bound to a slot; with NONE bound there is no register to write (log 12). -/
def releaseOwner (o : Three Owner) : Option BufId → Three Owner
  | some b => o.set b .P
  | none => o

/-- `OWNER[old] <- P` on the state. -/
def State.reclaimOwner (s : State) (old : Option BufId) : State := { s with owner := releaseOwner s.owner old }

/-- `SLOT[k] <- v` (R27). -/
def State.setSlot (s : State) (k : Fin 2) (v : Slot) : State := { s with slot := s.slot.set k v }

/-- An armed slot: idle with a buffer bound (R27). -/
def Slot.armed (v : Slot) : Bool := decide (v.st = .idle) && v.buf.isSome

/-- `KICK` (R201): start an armed slot when nothing is running, the oldest first. -/
def kickSlots (head : Fin 2) (sl : Two Slot) : Two Slot :=
  if (sl.get 0).st ≠ .running ∧ (sl.get 1).st ≠ .running then
    if (sl.get head).armed then sl.set head { sl.get head with st := .running, idx := 0 }
    else if (sl.get (1 - head)).armed then sl.set (1 - head) { sl.get (1 - head) with st := .running, idx := 0 }
    else sl
  else sl

/-- `KICK` on the state. -/
def State.kick (s : State) : State := { s with slot := kickSlots s.head s.slot }

/-- `rng_next` of the reference instance XS64 (R142). -/
def xs64Next (s : BitVec 64) : BitVec 64 :=
  let s1 := s ^^^ (s <<< 13)
  let s2 := s1 ^^^ (s1 >>> 7)
  s2 ^^^ (s2 <<< 17)

/-- `rng_init` of the fitted random source (R140, R142). -/
def rngInit (k : RngKind) (seed : BitVec 64) : RngState :=
  match k with
  | .xs64 => .xs64 seed
  | .other => .other (Config.otherRngInit seed)

/-- `rng_next` of the random source whose state it is (R140, R142): the new state and the random word. -/
def rngNext : RngState → RngState × Word
  | .xs64 s => (.xs64 (xs64Next s), (xs64Next s).setWidth 32)
  | .other t => (.other (Config.otherRngNext t).1, (Config.otherRngNext t).2)

/-- The effect of `RESET` (R311, R36), the only way out of the faulted condition (R292): every register of NGAP at its reset
value, the configuration unchanged, `STATUS` as the configuration checks leave it; the buffers hold a new `draw` (log 6). The
model's stream and its count of choices are outside NGAP and stay (log 16). -/
def State.applyReset (s : State) : State :=
  { s with
    rngState   := rngInit s.cfg.rng s.cfg.seed
    noiseState := 0
    filt       := FilterState.clear
    buf        := ⟨[], [], []⟩
    owner      := ⟨.P, .P, .P⟩
    slot       := ⟨Slot.empty, Slot.empty⟩
    head       := 0
    cnt        := 0
    fifo       := []
    seq        := ⟨0, 0, false, false⟩
    wires      := ⟨false, false, false⟩
    status     := Status.ofConfig s.cfg
    sched      := ⟨.primeFill0, 0, none⟩
    wireLog    := []
    genCount   := 0
    resetCount := s.resetCount + 1 }

end Sys2Proof.Machine
end

