-- ==== Sys2Proof/Machine/Engine.lean ====
section
/-! DEFINITION. The transfer engine (`44_transfer_engine.md`): its commands and its own step. -/
namespace Sys2Proof.Machine

open Sys2Proof

/-- `DSTART b` on the state (R202), the checks in the order written (R290). -/
def State.startTransfer (s : State) (b : BufId) : Except Raise State :=
  if s.cnt ≠ 0 then .error ⟨.protocolViolation, .dstart⟩
  else if s.owner.get b = .E then .error ⟨.ownershipViolation, .dstart⟩
  else .ok { (s.setOwner b .E).setSlot s.head ⟨.running, some b, 0⟩ with cnt := 1 }

/-- `DISDONE` (R203): the oldest outstanding transfer is done. -/
def State.isDone (s : State) : Bool := decide (s.cnt ≠ 0) && decide ((s.slot.get s.head).st = .done)

/-- `DNEXT` with one transfer outstanding (R204 case A): the other slot is armed; `KICK` starts it if nothing runs. -/
def State.bindNext (s : State) (b : BufId) : State :=
  { (s.setOwner b .E).setSlot (1 - s.head) ⟨.idle, some b, 0⟩ with cnt := 2 }.kick

/-- `DNEXT` with two transfers outstanding and the oldest done (R204 case B): the old buffer is reclaimed, the slot is armed
with the new one, the other transfer becomes the oldest. -/
def State.swapNext (s : State) (b : BufId) : State :=
  { ((s.reclaimOwner (s.slot.get s.head).buf).setOwner b .E).setSlot s.head ⟨.idle, some b, 0⟩ with
    head := 1 - s.head }.kick

/-- `DNEXT b` on the state (R204): the reclaimed buffer or NONE, and the next state. -/
def State.nextTransfer (s : State) (b : BufId) : Except Raise (Option BufId × State) :=
  if s.cnt = 0 then .error ⟨.protocolViolation, .dnext⟩
  else if s.owner.get b = .E then .error ⟨.ownershipViolation, .dnext⟩
  else if s.cnt = 1 then .ok (none, s.bindNext b)
  else if (s.slot.get s.head).st ≠ .done then .error ⟨.protocolViolation, .dnext⟩
  else .ok ((s.slot.get s.head).buf, s.swapNext b)

/-- `DWAIT` holds (R205): something is outstanding and the oldest is not done. -/
def State.waitHeld (s : State) : Bool := decide (s.cnt ≠ 0) && decide ((s.slot.get s.head).st ≠ .done)

/-- `DWAIT` on the state when it does not hold (R205): the old buffer is reclaimed and its slot emptied. -/
def State.reclaim (s : State) : Except Raise (Option BufId × State) :=
  if s.cnt = 0 then .error ⟨.protocolViolation, .dwait⟩
  else
    .ok ((s.slot.get s.head).buf,
      { (s.reclaimOwner (s.slot.get s.head).buf).setSlot s.head Slot.empty with
        head := 1 - s.head, cnt := s.cnt - 1 })

/-- The running slot (R207); at most one slot runs (R206), and were both to run the oldest is taken (log 10). -/
def State.runningSlot (s : State) : Option (Fin 2) :=
  if (s.slot.get s.head).st = .running then some s.head
  else if (s.slot.get (1 - s.head)).st = .running then some (1 - s.head)
  else none

/-- The ENGINE has a step (R207): a slot is running and the FIFO has room. -/
def State.engineEnabled (s : State) : Bool :=
  s.runningSlot.isSome && decide (s.fifo.length < s.cfg.fifoDepth)

/-- The slots after word `idx` of the running slot `k` was moved (R208): at N words the slot is done and `KICK` starts the
armed one in the same step. -/
def State.advanceSlots (s : State) (k : Fin 2) : Two Slot :=
  let v := s.slot.get k
  if v.idx + 1 = s.cfg.bufWords then kickSlots s.head (s.slot.set k { v with st := .done, idx := v.idx + 1 })
  else s.slot.set k { v with idx := v.idx + 1 }

/-- `DXFER` for the running slot `k` bound to buffer `b` (R208). -/
def State.moveWord (s : State) (k : Fin 2) (b : BufId) : State :=
  { s with fifo := s.fifo ++ [s.memRead b (s.slot.get k).idx], slot := s.advanceSlots k }

/-- `DSTART b` (R202). -/
def execDstart (b : BufId) (s : State) : Out := conclude s ((s.startTransfer b).map (fun t => (.unit, t)))

/-- `DISDONE` (R203): it writes nothing. -/
def execDisdone (s : State) : Out := .next (s.ret (.flag s.isDone))

/-- `DNEXT b` (R204). -/
def execDnext (b : BufId) (s : State) : Out :=
  conclude s ((s.nextTransfer b).map (fun p => (.buffer p.1, p.2)))

/-- `DWAIT` (R205). A held `DWAIT` of a harness changes nothing and the stream goes on (log 4). -/
def execDwait (s : State) : Out :=
  if s.waitHeld then s.hold else conclude s (s.reclaim.map (fun p => (.buffer p.1, p.2)))

/-- `DXFER` (R207, R208). A slot that runs with no buffer or outside [0, N-1] reads an address that does not exist (log 11). -/
def execDxfer (s : State) : Out :=
  match s.runningSlot with
  | none => s.hold
  | some k =>
    if s.fifo.length < s.cfg.fifoDepth then
      match (s.slot.get k).buf with
      | none => .fault .noSuchBuffer
      | some b =>
        if (s.slot.get k).idx < s.cfg.bufWords then .next ((s.moveWord k b).ret .unit) else .fault .noSuchIndex
    else s.hold

/-- `KICK` (R201). -/
def execKick (s : State) : Out := .next (s.kick.ret .unit)

end Sys2Proof.Machine
end

