-- ==== Sys2Proof/Machine/Biquad.lean ====
section
/-! DEFINITION. The IIR biquad filter (`42_biquad.md`). -/
namespace Sys2Proof.Machine

open Sys2Proof

/-- `BQPUSHX x` (R162): the write goes to the oldest entry; the cursor moves modulo 3. -/
def FilterState.pushX (f : FilterState) (x : FX) : FilterState :=
  { f with xHist := f.xHist.set f.xCur x, xCur := f.xCur + 1 }

/-- `BQPUSHY y` (R163): the cursor moves modulo 2. -/
def FilterState.pushY (f : FilterState) (y : FX) : FilterState :=
  { f with yHist := f.yHist.set f.yCur y, yCur := f.yCur + 1 }

/-- `BQCOMP x` on values (R164): the next FilterState and the output; none when an arithmetic step overflows. Every product is
rounded before it is added or subtracted, in the order written (D5). -/
def biquadStep (c : Config) (f : FilterState) (x : FX) : Option (FilterState × FX) := do
  let g := f.pushX x
  let x0 := g.xHist.get (g.xCur + 2)
  let x1 := g.xHist.get (g.xCur + 1)
  let x2 := g.xHist.get g.xCur
  let y1 := g.yHist.get (g.yCur + 1)
  let y2 := g.yHist.get g.yCur
  let acc ← fxMul c.cB0 x0
  let acc ← fxMac acc c.cB1 x1
  let acc ← fxMac acc c.cB2 x2
  let acc ← fxMsub acc c.cA1 y1
  let y ← fxMsub acc c.cA2 y2
  some (g.pushY y, y)

/-- `BQCLR` (R161). -/
def execBqclr (s : State) : Out := .next ({ s with filt := FilterState.clear }.ret .unit)

/-- `BQPUSHX x` (R162). -/
def execBqpushx (x : FX) (s : State) : Out := .next ({ s with filt := s.filt.pushX x }.ret .unit)

/-- `BQPUSHY y` (R163). -/
def execBqpushy (y : FX) (s : State) : Out := .next ({ s with filt := s.filt.pushY y }.ret .unit)

/-- `BQCOMP x` (R164): an overflow is reported as `BQCOMP` and leaves FilterState, the input push included. -/
def execBqcomp (x : FX) (s : State) : Out :=
  conclude s ((arith .bqcomp (biquadStep s.cfg s.filt x)).map (fun p => (.fx p.2, { s with filt := p.1 })))

end Sys2Proof.Machine
end

