-- ==== Sys2Proof/Machine/Noise.lean ====
section
/-! DEFINITION. The noise generator (`41_noise.md`): the random source, white noise, brown noise. -/
namespace Sys2Proof.Machine

open Sys2Proof

/-- `RNGSEED` on the state (R141): the reserved seed of XS64 raises ConfigReserved; another source accepts every seed (log 8). -/
def State.seedRng (s : State) (seed : BitVec 64) : Except Raise State :=
  if s.cfg.rng = .xs64 ∧ seed = 0 then .error ⟨.configReserved, .rngseed⟩
  else .ok { s with rngState := rngInit s.cfg.rng seed }

/-- `BROWN` on values (R145): the next `NOISE_STATE` and the emitted sample; none when an arithmetic step overflows. The
boundary test compares exact integers, so `-C_BOUND` is no `FXNEG` (log 14). -/
def brownStep (c : Config) (noise w : FX) : Option (FX × FX) := do
  let p ← fxMul c.cLeak noise
  let t ← fxMul w c.cStep
  let cand ← fxAdd p t
  let next ← if cand.toInt ≤ -c.cBound.toInt ∨ cand.toInt ≥ c.cBound.toInt then fxSub p t else some cand
  let out ← fxMul next c.cVol
  some (next, out)

/-- `RNGSEED seed` (R141). -/
def execRngseed (seed : BitVec 64) (s : State) : Out := conclude s ((s.seedRng seed).map (fun t => (.unit, t)))

/-- `RNGNEXT` (R143). -/
def execRngnext (s : State) : Out :=
  .next ({ s with rngState := (rngNext s.rngState).1 }.ret (.word (rngNext s.rngState).2))

/-- `WHITE r` (R144): no state, no fault. -/
def execWhite (r : Word) (s : State) : Out := .next (s.ret (.fx (whiteSample r)))

/-- `BROWN w` (R145): an overflow is reported as `BROWN` and leaves `NOISE_STATE` (R281). -/
def execBrown (w : FX) (s : State) : Out :=
  conclude s ((arith .brown (brownStep s.cfg s.noiseState w)).map
    (fun p => (.fx p.2, { s with noiseState := p.1 })))

end Sys2Proof.Machine
end

