-- ==== Sys2Proof/Machine/Pack.lean ====
section
/-! DEFINITION. The sample pipeline, word packing and buffer fill (`43_pack_fill.md`). -/
namespace Sys2Proof.Machine

open Sys2Proof

/-- `SAMPLE` on the state (R182): one random word, one noise step, one filter step; a fault is `BROWN`'s or `BQCOMP`'s. -/
def State.nextSample (s : State) : Except Raise (FX × State) := do
  let (rng, r) := rngNext s.rngState
  let (noise, o) ← arith .brown (brownStep s.cfg s.noiseState (whiteSample r))
  let (filt, y) ← arith .bqcomp (biquadStep s.cfg s.filt o)
  .ok (y, { s with rngState := rng, noiseState := noise, filt := filt })

/-- The flag of a `Q15` conversion (R180). -/
def State.noteClip (s : State) (y : FX) : State := { s with status := s.status.withClip (q15 y).2 }

/-- Fill step `i` of buffer `b` (R184): the next sample, packed, is written as word `i`; a fault discards all of the step. -/
def State.fillWord (s : State) (b : BufId) (i : Nat) : Except Raise State := do
  let (y, t) ← s.nextSample
  (t.noteClip y).memWrite b i (packWord s.cfg.monoMode (q15 y).1)

/-- `n` fill steps of buffer `b` from word `i` on (R184); a fault leaves the words before it written. -/
def State.fillFrom (b : BufId) : Nat → Nat → State → State
  | 0, _, s => { s with genCount := s.genCount + 1 }.ret .unit
  | n + 1, i, s =>
    match s.fillWord b i with
    | .ok t => State.fillFrom b n (i + 1) t
    | .error e => s.takeFault e

/-- `Q15 y` (R180). -/
def execQ15 (y : FX) (s : State) : Out := .next ((s.noteClip y).ret (.pcm (q15 y).1))

/-- `PACK y` (R181). -/
def execPack (y : FX) (s : State) : Out := .next ((s.noteClip y).ret (.word (packWord s.cfg.monoMode (q15 y).1)))

/-- `SAMPLE` (R182). -/
def execSample (s : State) : Out := conclude s (s.nextSample.map (fun p => (.fx p.1, p.2)))

/-- `BUFWR b, i, v` (R183); an address that does not exist is refused (R61, V7). -/
def execBufwr (b : BufId) (i : Nat) (v : Word) (s : State) : Out :=
  if i < s.cfg.bufWords then conclude s ((s.memWrite b i v).map (fun t => (.unit, t)))
  else .refused .noSuchIndex

/-- `FILL b` (R184): the N fill steps as one operation of a trace (log 13); it uses neither `FILL_I` nor `SCH`. -/
def execFill (b : BufId) (s : State) : Out := .next (State.fillFrom b s.cfg.bufWords 0 s)

end Sys2Proof.Machine
end

