-- ==== Sys2Proof/Machine/Scheduler.lean ====
section
/-! DEFINITION. The streaming buffer scheduler (`45_scheduler.md`): one PRODUCER step is one transition of its ten states. -/
namespace Sys2Proof.Machine

open Sys2Proof

/-- `sch <- S` (R11). -/
def State.goto (s : State) (n : Sch) : State := { s with sched := { s.sched with sch := n } }

/-- `FREE <- b` (R33). -/
def State.setFree (s : State) (b : Option BufId) : State := { s with sched := { s.sched with free := b } }

/-- The PRODUCER has a step (R230, R296): no fault is recorded and the `DWAIT` of PRIME_WAIT does not hold. -/
def State.producerEnabled (s : State) : Bool :=
  decide (s.status.fault = 0) && !(decide (s.sched.sch = .primeWait) && s.waitHeld)

/-- The scheduler registers after a fill step (R231). -/
def State.advanceFill (s : State) (n : Sch) : State :=
  if s.sched.fillI + 1 = s.cfg.bufWords then
    { s with sched := { s.sched with sch := n, fillI := 0 }, genCount := s.genCount + 1 }
  else { s with sched := { s.sched with fillI := s.sched.fillI + 1 } }

/-- The fill step of a fill state with buffer `b` and successor `n` (R231). With NONE to fill, or `FILL_I` outside [0, N-1],
there is no address to write (log 11). -/
def schFill (b : Option BufId) (n : Sch) (s : State) : Out :=
  match b with
  | none => .fault .noSuchBuffer
  | some b =>
    if s.sched.fillI < s.cfg.bufWords then
      conclude s ((s.fillWord b s.sched.fillI).map (fun t => (.unit, t.advanceFill n)))
    else .fault .noSuchIndex

/-- PRIME_START (R232). -/
def schStart (s : State) : Out := conclude s ((s.startTransfer 0).map (fun t => (.unit, t.goto .primeFill1)))

/-- PRIME_NEXT1 and PRIME_NEXT2 (R234, R237): the result of `DNEXT` is discarded. -/
def schNext (b : BufId) (n : Sch) (s : State) : Out :=
  conclude s ((s.nextTransfer b).map (fun p => (.unit, p.2.goto n)))

/-- PRIME_WAIT (R236) when `DWAIT` does not hold. -/
def schWait (s : State) : Out := conclude s (s.reclaim.map (fun p => (.unit, (p.2.setFree p.1).goto .primeNext2)))

/-- RUN_POLL (R238). -/
def schPoll (s : State) : Out := .next ((if s.isDone then s.goto .runFill else s).ret .unit)

/-- RUN_NEXT (R240): `FREE <- DNEXT(FREE)`. With NONE free there is no buffer to hand over (log 11). -/
def schRunNext (s : State) : Out :=
  match s.sched.free with
  | none => .fault .noSuchBuffer
  | some b => conclude s ((s.nextTransfer b).map (fun p => (.unit, (p.2.setFree p.1).goto .runPoll)))

/-- `SCHSTEP` (R230). -/
def execSchstep (s : State) : Out :=
  if s.producerEnabled then
    match s.sched.sch with
    | .primeFill0 => schFill (some 0) .primeStart s
    | .primeStart => schStart s
    | .primeFill1 => schFill (some 1) .primeNext1 s
    | .primeNext1 => schNext 1 .primeFill2 s
    | .primeFill2 => schFill (some 2) .primeWait s
    | .primeWait => schWait s
    | .primeNext2 => schNext 2 .runPoll s
    | .runPoll => schPoll s
    | .runFill => schFill s.sched.free .runNext s
    | .runNext => schRunNext s
  else s.hold

end Sys2Proof.Machine
end

