-- ==== Sys2Proof/Machine/Agents.lean ====
section
/-! DEFINITION. Which operation the next step performs: the head of the operation stream, or, with the stream empty, the step
of an enabled agent (`60_exceptions.md` R296). -/
namespace Sys2Proof.Machine

open Sys2Proof

/-- The agents that take steps by themselves (`00_scope.md` R7). -/
inductive Agent where
  | producer
  | engine
  | sequencer
  deriving DecidableEq, Repr

/-- The operation that is a step of the agent (R7). -/
def Agent.op : Agent → Instr
  | .producer => .schstep
  | .engine => .dxfer
  | .sequencer => .sqtick

/-- The agent has a step (R296): the SEQUENCER always. -/
def State.enabled (s : State) : Agent → Bool
  | .producer => s.producerEnabled
  | .engine => s.engineEnabled
  | .sequencer => true

/-- The enabled agents. -/
def State.enabledAgents (s : State) : List Agent := [.producer, .engine, .sequencer].filter s.enabled

/-- The agent that choice number `k` names among the enabled ones. -/
def State.agentOf (s : State) (k : Nat) : Agent :=
  s.enabledAgents.getD (k % s.enabledAgents.length) .sequencer

/-- What `step` does with a stream that holds no operation. -/
def refusalOf : DecodeError → Refusal
  | .unknownIdentifier => .unknownIdentifier
  | .noSuchBuffer => .noSuchBuffer
  | .truncated => .truncated

/-- The next operation and the state it is performed in: the stream without it, or one more scheduling choice made (log 2, 5). -/
def State.fetch (s : State) : Except DecodeError (Instr × State) :=
  match s.program with
  | [] => .ok ((s.agentOf (Config.schedule s.choices)).op, { s with choices := s.choices + 1 })
  | _ :: _ => (decode s.program).map (fun p => (p.1, { s with program := p.2 }))

/-- The stream holds exactly the operation of an opcode table word, zeros after it. -/
def State.loadTableWord (s : State) (nbits w : Nat) : State := { s with program := tableBytes nbits w }

end Sys2Proof.Machine
end

