-- ==== Sys2Proof/Machine/Fixed.lean ====
section
/-! DEFINITION. The fixed-point operations issued by themselves (`40_fixed_point.md` R120 to R125). They write no register; the
result goes to the caller, an overflow is ArithOverflow with the operation's own identifier (`60_exceptions.md` R281). -/
namespace Sys2Proof.Machine

open Sys2Proof

/-- The end of a fixed-point operation `o`. -/
def concludeFx (o : OpId) (s : State) (r : Option FX) : Out :=
  conclude s ((arith o r).map (fun v => (.fx v, s)))

/-- `FXADD a, b` (R120). -/
def execFxadd (a b : FX) (s : State) : Out := concludeFx .fxadd s (fxAdd a b)

/-- `FXSUB a, b` (R121). -/
def execFxsub (a b : FX) (s : State) : Out := concludeFx .fxsub s (fxSub a b)

/-- `FXNEG a` (R122). -/
def execFxneg (a : FX) (s : State) : Out := concludeFx .fxneg s (fxNeg a)

/-- `FXMUL a, b` (R123). -/
def execFxmul (a b : FX) (s : State) : Out := concludeFx .fxmul s (fxMul a b)

/-- `FXMAC acc, a, b` (R124). -/
def execFxmac (acc a b : FX) (s : State) : Out := concludeFx .fxmac s (fxMac acc a b)

/-- `FXMSUB acc, a, b` (R125). -/
def execFxmsub (acc a b : FX) (s : State) : Out := concludeFx .fxmsub s (fxMsub acc a b)

end Sys2Proof.Machine
end

