-- ==== Sys2Proof/Machine/Reset.lean ====
section
/-! DEFINITION. The external reset (`70_reset_and_hazards.md`). -/
namespace Sys2Proof.Machine

/-- `RESET` (R311). A reserved configuration shows in `STATUS` and the state above is kept (log 16). -/
def execReset (s : State) : Out := .next (s.applyReset.ret .unit)

end Sys2Proof.Machine
end

