-- ==== Sys2Proof/Machine/Sequencer.lean ====
section
/-! DEFINITION. The serial audio sequencer (`46_sequencer.md`): its tick and the clock divisor. -/
namespace Sys2Proof.Machine

open Sys2Proof

/-- A frame boundary (R252): a new word is needed. -/
def State.atBoundary (s : State) : Bool := !s.seq.phase && decide (s.seq.bitcnt = 0)

/-- The set-up half of a bit slot with the shift register holding `w` (R252): data and word-select change, the clock goes low. -/
def State.driveBit (s : State) (w : Word) : State :=
  { s with
    seq   := { s.seq with osr := w <<< 1, phase := true }
    wires := ⟨w.getLsbD 31, false, decide (16 ≤ s.seq.bitcnt.val)⟩ }

/-- The clock half of a bit slot (R252): the rising edge, logged. -/
def State.clockBit (s : State) : State :=
  { s with
    seq     := { s.seq with bitcnt := s.seq.bitcnt + 1, phase := false }
    wires   := { s.wires with bclk := true }
    wireLog := s.wireLog ++ [(s.wires.ws, s.wires.sd)] }

/-- One tick (R252, R253). -/
def State.tick (s : State) : State :=
  if s.seq.phase then s.clockBit
  else if s.seq.bitcnt = 0 then
    match s.fifo with
    | [] => { s with status := s.status.withUnderrun s.seq.started }
    | w :: rest => { s with fifo := rest, seq := { s.seq with started := true } }.driveBit w
  else s.driveBit s.seq.osr

/-- `SQTICK` (R252): always enabled, never faults. -/
def execSqtick (s : State) : Out := .next (s.tick.ret .unit)

/-- `DIVCALC base_hz, cycles_per_bit, bclk_hz` (R257): a `CLKDIV` word for the HOST; no operation writes the register (R31). -/
def execDivcalc (baseHz cyclesPerBit bclkHz : ℕ+) (s : State) : Out :=
  match divCalc baseHz cyclesPerBit bclkHz with
  | some w => .next (s.ret (.word w))
  | none => .next (s.takeFault ⟨.configReserved, .divcalc⟩)

end Sys2Proof.Machine
end

