-- ==== Sys2Proof/Machine/Dispatch.lean ====
section
/-! DEFINITION. The meaning of every operation, one arm per constructor of `Instr` (`30_encoding.md` R98). -/
namespace Sys2Proof.Machine

open Sys2Proof

def exec (i : Instr) (s : State) : Host.Outcome State Fault Refusal :=
  match i with
  | .fxadd a b => Sys2Proof.Machine.execFxadd a b s
  | .fxsub a b => Sys2Proof.Machine.execFxsub a b s
  | .fxneg a => Sys2Proof.Machine.execFxneg a s
  | .fxmul a b => Sys2Proof.Machine.execFxmul a b s
  | .fxmac acc a b => Sys2Proof.Machine.execFxmac acc a b s
  | .fxmsub acc a b => Sys2Proof.Machine.execFxmsub acc a b s
  | .rngseed seed => Sys2Proof.Machine.execRngseed seed s
  | .rngnext => Sys2Proof.Machine.execRngnext s
  | .white r => Sys2Proof.Machine.execWhite r s
  | .brown w => Sys2Proof.Machine.execBrown w s
  | .bqclr => Sys2Proof.Machine.execBqclr s
  | .bqpushx x => Sys2Proof.Machine.execBqpushx x s
  | .bqpushy y => Sys2Proof.Machine.execBqpushy y s
  | .bqcomp x => Sys2Proof.Machine.execBqcomp x s
  | .q15 y => Sys2Proof.Machine.execQ15 y s
  | .pack y => Sys2Proof.Machine.execPack y s
  | .sample => Sys2Proof.Machine.execSample s
  | .bufwr b k v => Sys2Proof.Machine.execBufwr b k v s
  | .fill b => Sys2Proof.Machine.execFill b s
  | .dstart b => Sys2Proof.Machine.execDstart b s
  | .disdone => Sys2Proof.Machine.execDisdone s
  | .dnext b => Sys2Proof.Machine.execDnext b s
  | .dwait => Sys2Proof.Machine.execDwait s
  | .dxfer => Sys2Proof.Machine.execDxfer s
  | .kick => Sys2Proof.Machine.execKick s
  | .schstep => Sys2Proof.Machine.execSchstep s
  | .sqtick => Sys2Proof.Machine.execSqtick s
  | .divcalc baseHz cyclesPerBit bclkHz => Sys2Proof.Machine.execDivcalc baseHz cyclesPerBit bclkHz s
  | .reset => Sys2Proof.Machine.execReset s

end Sys2Proof.Machine
end

