-- ==== Sys2Proof/Machine/Step.lean ====
section
/-! DEFINITION. One step of NGAP: the next operation, performed. -/
namespace Sys2Proof.Machine

open Sys2Proof

/-- One step (`00_scope.md` R8, `60_exceptions.md` R296): an operation of the stream, or of an enabled agent. -/
def step (s : State) : Host.Outcome State Fault Refusal :=
  match s.fetch with
  | .ok (i, t) => exec i t
  | .error e => .refused (refusalOf e)

/-- The state whose next step performs the operation of an opcode table word. -/
def State.withFetchWord (s : State) (nbits w : Nat) : State := s.loadTableWord nbits w

end Sys2Proof.Machine
end

