-- ==== Sys2Proof/Safety.lean ====
section
/-! DEFINITION. What counts as a good state and a good run, in the terms the claims use. -/
namespace Sys2Proof.Machine

open Sys2Proof

/-- An exact integer that is an FX value (R127). -/
abbrev InFx (v : Int) : Prop := -2147483648 ≤ v ∧ v ≤ 2147483647

/-- `q` is `floor(x / 65536)`, the rounding of a product (R123). -/
abbrev IsFloor (q x : Int) : Prop := q * 65536 ≤ x ∧ x < (q + 1) * 65536

/-- R206 item 1: at most one slot is running. -/
abbrev OneRunning (s : State) : Prop :=
  ¬ ((s.slot.get 0).st = .running ∧ (s.slot.get 1).st = .running)

/-- R206 item 2: if a slot is armed, the other slot is running. -/
abbrev ArmedBehindRunning (s : State) : Prop :=
  ∀ k : Fin 2, (s.slot.get k).armed = true → (s.slot.get (1 - k)).st = .running

/-- R206 item 3: `CNT` equals the number of slots with a buffer bound. -/
abbrev CountsBound (s : State) : Prop :=
  s.cnt.val = (if (s.slot.get 0).buf.isSome then 1 else 0) + (if (s.slot.get 1).buf.isSome then 1 else 0)

/-- R206 item 4: with one transfer outstanding the head slot is running or done and the other is empty; with none both are empty. -/
abbrev HeadOldest (s : State) : Prop :=
  (s.cnt = 1 → (s.slot.get s.head).st ≠ .idle ∧ s.slot.get (1 - s.head) = Slot.empty) ∧
  (s.cnt = 0 → s.slot.get 0 = Slot.empty ∧ s.slot.get 1 = Slot.empty)

/-- R206 item 5: the states of two outstanding transfers. -/
abbrev PairStates (s : State) : Prop :=
  s.cnt = 2 →
    ((s.slot.get s.head).st = .running ∧ (s.slot.get (1 - s.head)).st = .idle) ∨
    ((s.slot.get s.head).st = .done ∧ (s.slot.get (1 - s.head)).st = .running) ∨
    ((s.slot.get s.head).st = .done ∧ (s.slot.get (1 - s.head)).st = .done)

/-- R206 item 6: a buffer is engine-owned exactly when it is bound to a slot, and none is bound to both. -/
abbrev OwnedWhenBound (s : State) : Prop :=
  (∀ b : BufId, s.owner.get b = .E ↔ (s.slot.get 0).buf = some b ∨ (s.slot.get 1).buf = some b) ∧
  (∀ b : BufId, ¬ ((s.slot.get 0).buf = some b ∧ (s.slot.get 1).buf = some b))

/-- R206 item 7: a slot is done exactly when its index is N; a running slot's is below N; an armed slot's is 0. -/
abbrev IndexMatches (s : State) : Prop :=
  ∀ k : Fin 2, ((s.slot.get k).st = .done ↔ (s.slot.get k).idx = s.cfg.bufWords) ∧
    ((s.slot.get k).st = .running → (s.slot.get k).idx < s.cfg.bufWords) ∧
    ((s.slot.get k).armed = true → (s.slot.get k).idx = 0)

/-- The invariants of the transfer engine, all of R206. -/
abbrev EngineInv (s : State) : Prop :=
  OneRunning s ∧ ArmedBehindRunning s ∧ CountsBound s ∧ HeadOldest s ∧ PairStates s ∧ OwnedWhenBound s ∧ IndexMatches s

/-- The storage is within its bounds: every buffer is in canonical form and holds words of [0, N-1] only (R61), and the FIFO
holds at most `FIFO_DEPTH` words (R28). -/
abbrev StorageInv (s : State) : Prop :=
  (∀ b : BufId, (s.buf.get b).wf = true ∧ (s.buf.get b).within s.cfg.bufWords = true) ∧
  s.fifo.length ≤ s.cfg.fifoDepth

/-- Where the buffers are in each scheduler state (R232 to R240, R242). In the run loop `FREE` is the buffer before the two
bound ones in the rotation 0, 1, 2. -/
abbrev RoleShape (s : State) : Prop :=
  match s.sched.sch with
  | .primeFill0 | .primeStart => s.cnt = 0 ∧ s.head = 0
  | .primeFill1 | .primeNext1 => s.cnt = 1 ∧ s.head = 0 ∧ (s.slot.get 0).buf = some 0
  | .primeFill2 | .primeWait =>
    s.cnt = 2 ∧ s.head = 0 ∧ (s.slot.get 0).buf = some 0 ∧ (s.slot.get 1).buf = some 1
  | .primeNext2 => s.cnt = 1 ∧ s.head = 1 ∧ (s.slot.get 1).buf = some 1 ∧ s.sched.free = some 0
  | .runPoll =>
    s.cnt = 2 ∧ ∃ f : BufId, s.sched.free = some f ∧
      (s.slot.get s.head).buf = some (f + 1) ∧ (s.slot.get (1 - s.head)).buf = some (f + 2)
  | .runFill | .runNext =>
    s.cnt = 2 ∧ (s.slot.get s.head).st = .done ∧ ∃ f : BufId, s.sched.free = some f ∧
      (s.slot.get s.head).buf = some (f + 1) ∧ (s.slot.get (1 - s.head)).buf = some (f + 2)

/-- `FILL_I` is an index of a buffer (R33), and 0 outside the fill states. -/
abbrev FillIndex (s : State) : Prop :=
  s.sched.fillI < s.cfg.bufWords ∧
  (s.sched.sch ≠ .primeFill0 ∧ s.sched.sch ≠ .primeFill1 ∧ s.sched.sch ≠ .primeFill2 ∧ s.sched.sch ≠ .runFill →
    s.sched.fillI = 0)

/-- No fault but an arithmetic overflow or a reserved configuration is recorded (R242: the other two are unreachable through
the scheduler). -/
abbrev OnlyExpectedFaults (s : State) : Prop :=
  s.status.fault = 0 ∨ s.status.fault = Cause.arithOverflow.code ∨ s.status.fault = Cause.configReserved.code

/-- The invariant of the pipeline when nothing but its own agents acts. -/
abbrev PipelineInv (s : State) : Prop :=
  EngineInv s ∧ StorageInv s ∧ RoleShape s ∧ FillIndex s ∧ OnlyExpectedFaults s

/-- The boundary property of the random walk (R22, R146). -/
abbrev NoiseInv (s : State) : Prop := -16384 < s.noiseState.toInt ∧ s.noiseState.toInt < 16384

/-- Operations performed one after another, up to the first that stops the model. -/
def runOps : List Instr → State → Out
  | [], s => .next s
  | i :: is, s =>
    match exec i s with
    | .next t => runOps is t
    | .fault f => .fault f
    | .refused r => .refused r

/-- The entries one frame adds to `WIRE_LOG` for the word `w` (R95, R260): channel A, then channel B, most significant bit first. -/
def frameLog (w : Word) : List (Bool × Bool) :=
  (List.range 32).map (fun j => (decide (16 ≤ j), w.getLsbD (31 - j)))

/-- The fill steps of R184 performed operation by operation: `SAMPLE`, `PACK` of its result, `BUFWR` of that word; none when one
of them faults or is refused. -/
def fillByHand (b : BufId) : Nat → Nat → State → Option State
  | 0, _, s => some s
  | n + 1, i, s =>
    match exec .sample s with
    | .next s1 =>
      match s1.result with
      | .fx y =>
        match exec (.pack y) s1 with
        | .next s2 =>
          match s2.result with
          | .word w =>
            match exec (.bufwr b i w) s2 with
            | .next s3 => if s3.result = .unit then fillByHand b n (i + 1) s3 else none
            | _ => none
          | _ => none
        | _ => none
      | _ => none
    | _ => none

/-- The fill states with their buffer and successor (R230, R231, R239). -/
def fillStateOf (s : State) : Option (BufId × Sch) :=
  match s.sched.sch with
  | .primeFill0 => some (0, .primeStart)
  | .primeFill1 => some (1, .primeNext1)
  | .primeFill2 => some (2, .primeWait)
  | .runFill => s.sched.free.map (fun b => (b, .runNext))
  | _ => none

end Sys2Proof.Machine
end

