-- ==== Sys2Proof/Certificates/Slice0/Obligations.lean ====
section
/-! DEFINITION. The statements about NGAP, from the numbered rules of its spec. `{ s with result := … }` in a next state says
that nothing else changed: every register, every buffer word, every history is as before. -/

open Sys2Proof Sys2Proof.Machine

/-! ## Fixed-point arithmetic (`40_fixed_point.md`) -/

/-- R120: `FXADD` gives the exact sum, or ArithOverflow when the sum is no FX value; it writes no register. -/
def Obligations.FxaddGivesExactSum : Prop :=
  ∀ (a b : FX) (s : State),
    (InFx (a.toInt + b.toInt) → ∃ r : FX, r.toInt = a.toInt + b.toInt ∧
      exec (.fxadd a b) s = .next { s with result := .fx r }) ∧
    (¬ InFx (a.toInt + b.toInt) → exec (.fxadd a b) s = .next (s.takeFault ⟨.arithOverflow, .fxadd⟩))

/-- R121: `FXSUB` gives the exact difference, or ArithOverflow. -/
def Obligations.FxsubGivesExactDifference : Prop :=
  ∀ (a b : FX) (s : State),
    (InFx (a.toInt - b.toInt) → ∃ r : FX, r.toInt = a.toInt - b.toInt ∧
      exec (.fxsub a b) s = .next { s with result := .fx r }) ∧
    (¬ InFx (a.toInt - b.toInt) → exec (.fxsub a b) s = .next (s.takeFault ⟨.arithOverflow, .fxsub⟩))

/-- R122: `FXNEG` gives the negation and faults for the one operand 0x80000000. -/
def Obligations.FxnegFaultsOnlyAtMinimum : Prop :=
  ∀ (a : FX) (s : State),
    (a ≠ 0x80000000 → ∃ r : FX, r.toInt = -a.toInt ∧ exec (.fxneg a) s = .next { s with result := .fx r }) ∧
    (a = 0x80000000 → exec (.fxneg a) s = .next (s.takeFault ⟨.arithOverflow, .fxneg⟩))

/-- R123: `FXMUL` gives the floor of the exact product over 65536, or ArithOverflow. -/
def Obligations.FxmulFloorsTheProduct : Prop :=
  ∀ (a b : FX) (q : Int) (s : State), IsFloor q (a.toInt * b.toInt) →
    (InFx q → ∃ r : FX, r.toInt = q ∧ exec (.fxmul a b) s = .next { s with result := .fx r }) ∧
    (¬ InFx q → exec (.fxmul a b) s = .next (s.takeFault ⟨.arithOverflow, .fxmul⟩))

/-- R124: `FXMAC` rounds the product, then adds it; an overflow of either step is `FXMAC`'s. -/
def Obligations.FxmacAddsTheRoundedProduct : Prop :=
  ∀ (acc a b : FX) (m : Int) (s : State), IsFloor m (a.toInt * b.toInt) →
    (InFx m ∧ InFx (acc.toInt + m) → ∃ r : FX, r.toInt = acc.toInt + m ∧
      exec (.fxmac acc a b) s = .next { s with result := .fx r }) ∧
    (¬ (InFx m ∧ InFx (acc.toInt + m)) →
      exec (.fxmac acc a b) s = .next (s.takeFault ⟨.arithOverflow, .fxmac⟩))

/-- R125: `FXMSUB` subtracts the rounded product. -/
def Obligations.FxmsubSubtractsTheRoundedProduct : Prop :=
  ∀ (acc a b : FX) (m : Int) (s : State), IsFloor m (a.toInt * b.toInt) →
    (InFx m ∧ InFx (acc.toInt - m) → ∃ r : FX, r.toInt = acc.toInt - m ∧
      exec (.fxmsub acc a b) s = .next { s with result := .fx r }) ∧
    (¬ (InFx m ∧ InFx (acc.toInt - m)) →
      exec (.fxmsub acc a b) s = .next (s.takeFault ⟨.arithOverflow, .fxmsub⟩))

/-! ## Noise generator (`41_noise.md`) -/

/-- R141: `RNGSEED` seeds the fitted source; the reserved seed 0 of XS64 raises ConfigReserved. That another source accepts
every seed is the model's choice (log 8). -/
def Obligations.RngseedSeedsTheSource : Prop :=
  ∀ (seed : BitVec 64) (s : State),
    (s.cfg.rng = .xs64 ∧ seed ≠ 0 →
      exec (.rngseed seed) s = .next { s with rngState := .xs64 seed, result := .unit }) ∧
    (s.cfg.rng = .xs64 ∧ seed = 0 →
      exec (.rngseed seed) s = .next (s.takeFault ⟨.configReserved, .rngseed⟩)) ∧
    (s.cfg.rng = .other →
      exec (.rngseed seed) s =
        .next { s with rngState := .other (Config.otherRngInit seed), result := .unit })

/-- R142, R143: under XS64 `RNGNEXT` advances the state by the three shifts, computed on natural numbers, and gives its low 32
bits; under another source it calls that source once. -/
def Obligations.RngnextAdvancesTheSource : Prop :=
  (∀ (v : BitVec 64) (s : State), s.rngState = .xs64 v →
    ∃ t : BitVec 64,
      (let n1 := v.toNat ^^^ (v.toNat * 2 ^ 13 % 2 ^ 64)
       let n2 := n1 ^^^ (n1 / 2 ^ 7)
       t.toNat = n2 ^^^ (n2 * 2 ^ 17 % 2 ^ 64)) ∧
      exec .rngnext s =
        .next { s with rngState := .xs64 t, result := .word (BitVec.ofNat 32 (t.toNat % 2 ^ 32)) }) ∧
  (∀ (v : Nat) (s : State), s.rngState = .other v →
    exec .rngnext s =
      .next { s with rngState := .other (Config.otherRngNext v).1, result := .word (Config.otherRngNext v).2 })

/-- R144: `WHITE` takes the low 16 bits as magnitude and bit 31 as sign; it never faults and writes no state. -/
def Obligations.WhiteTakesMagnitudeAndSign : Prop :=
  ∀ (r : Word) (s : State), ∃ w : FX,
    w.toInt = (if 2 ^ 31 ≤ r.toNat then -((r.toNat % 65536 : Nat) : Int) else ((r.toNat % 65536 : Nat) : Int)) ∧
    exec (.white r) s = .next { s with result := .fx w }

/-- R145: `BROWN` computes leak, step, candidate, reflection and volume on exact integers; `NOISE_STATE` takes the pre-volume
value; an overflow of any step is `BROWN`'s and leaves the state. -/
def Obligations.BrownReflectsAtTheBoundary : Prop :=
  ∀ (w : FX) (p t o : Int) (s : State),
    IsFloor p (s.cfg.cLeak.toInt * s.noiseState.toInt) → IsFloor t (w.toInt * s.cfg.cStep.toInt) →
    let c := if p + t ≤ -s.cfg.cBound.toInt ∨ p + t ≥ s.cfg.cBound.toInt then p - t else p + t
    IsFloor o (c * s.cfg.cVol.toInt) →
    (InFx p ∧ InFx t ∧ InFx (p + t) ∧ InFx c ∧ InFx o → ∃ n e : FX, n.toInt = c ∧ e.toInt = o ∧
      exec (.brown w) s = .next { s with noiseState := n, result := .fx e }) ∧
    (¬ (InFx p ∧ InFx t ∧ InFx (p + t) ∧ InFx c ∧ InFx o) →
      exec (.brown w) s = .next (s.takeFault ⟨.arithOverflow, .brown⟩))

/-- R146, R148: with the default constants, from a state inside the boundary and for a white sample, `BROWN` does not fault, the
walk stays inside the boundary and the emitted sample is in [-4096, 4095]. -/
def Obligations.BrownStaysInsideTheBoundary : Prop :=
  ∀ (r : Word) (s : State), s.cfg.DefaultConstants → NoiseInv s →
    ∃ n e : FX, exec (.brown (whiteSample r)) s = .next { s with noiseState := n, result := .fx e } ∧
      -16384 < n.toInt ∧ n.toInt < 16384 ∧ -4096 ≤ e.toInt ∧ e.toInt ≤ 4095

/-- R22, R146: while only the agents of NGAP act, with the default constants, every step keeps the walk inside the boundary. -/
def Obligations.NoiseBoundaryKeptByEveryStep : Prop :=
  ∀ s t : State, s.cfg.DefaultConstants → s.program = [] → NoiseInv s → step s = .next t →
    NoiseInv t ∧ t.cfg.DefaultConstants ∧ t.program = []

/-! ## Biquad (`42_biquad.md`) -/

/-- R161: `BQCLR` zeroes both histories and both cursors. -/
def Obligations.BqclrClearsTheFilter : Prop :=
  ∀ s : State, ∃ f : FilterState,
    exec .bqclr s = .next { s with filt := f, result := .unit } ∧
    (∀ i, f.xHist.get i = 0) ∧ f.xCur = 0 ∧ (∀ i, f.yHist.get i = 0) ∧ f.yCur = 0

/-- R162: `BQPUSHX` writes the entry at the cursor and moves the cursor modulo 3. -/
def Obligations.BqpushxWritesTheOldestInput : Prop :=
  ∀ (x : FX) (s : State), ∃ (h : Three FX) (c : Fin 3),
    exec (.bqpushx x) s = .next { s with filt := { s.filt with xHist := h, xCur := c }, result := .unit } ∧
    h.get s.filt.xCur = x ∧ (∀ i, i ≠ s.filt.xCur → h.get i = s.filt.xHist.get i) ∧
    c.val = (s.filt.xCur.val + 1) % 3

/-- R163: `BQPUSHY` writes the entry at the cursor and moves the cursor modulo 2. -/
def Obligations.BqpushyWritesTheOldestOutput : Prop :=
  ∀ (y : FX) (s : State), ∃ (h : Two FX) (c : Fin 2),
    exec (.bqpushy y) s = .next { s with filt := { s.filt with yHist := h, yCur := c }, result := .unit } ∧
    h.get s.filt.yCur = y ∧ (∀ i, i ≠ s.filt.yCur → h.get i = s.filt.yHist.get i) ∧
    c.val = (s.filt.yCur.val + 1) % 2

/-- R160, R164, R165: `BQCOMP` computes the difference equation on the new input, the two inputs pushed last before it and the two
outputs pushed last, each product floored, in the order written; it pushes one input and one output. An overflow of any
step is `BQCOMP`'s and leaves FilterState. -/
def Obligations.BqcompComputesTheDifferenceEquation : Prop :=
  ∀ (x : FX) (m0 m1 m2 m3 m4 : Int) (s : State),
    IsFloor m0 (s.cfg.cB0.toInt * x.toInt) →
    IsFloor m1 (s.cfg.cB1.toInt * (s.filt.xHist.get (s.filt.xCur - 1)).toInt) →
    IsFloor m2 (s.cfg.cB2.toInt * (s.filt.xHist.get (s.filt.xCur - 2)).toInt) →
    IsFloor m3 (s.cfg.cA1.toInt * (s.filt.yHist.get (s.filt.yCur - 1)).toInt) →
    IsFloor m4 (s.cfg.cA2.toInt * (s.filt.yHist.get (s.filt.yCur - 2)).toInt) →
    let fits := InFx m0 ∧ InFx m1 ∧ InFx (m0 + m1) ∧ InFx m2 ∧ InFx (m0 + m1 + m2) ∧ InFx m3 ∧
      InFx (m0 + m1 + m2 - m3) ∧ InFx m4 ∧ InFx (m0 + m1 + m2 - m3 - m4)
    (fits → ∃ y : FX, y.toInt = m0 + m1 + m2 - m3 - m4 ∧
      exec (.bqcomp x) s = .next { s with
        filt := ⟨s.filt.xHist.set s.filt.xCur x, s.filt.xCur + 1, s.filt.yHist.set s.filt.yCur y, s.filt.yCur + 1⟩
        result := .fx y }) ∧
    (¬ fits → exec (.bqcomp x) s = .next (s.takeFault ⟨.arithOverflow, .bqcomp⟩))

/-- R166: the result and the next FilterState of `BQCOMP` are a function of the input, FilterState and the five coefficients. -/
def Obligations.BqcompDependsOnFilterAndCoefficientsOnly : Prop :=
  ∀ (x : FX) (s u : State), s.filt = u.filt → s.cfg.cB0 = u.cfg.cB0 → s.cfg.cB1 = u.cfg.cB1 →
    s.cfg.cB2 = u.cfg.cB2 → s.cfg.cA1 = u.cfg.cA1 → s.cfg.cA2 = u.cfg.cA2 →
    ∃ s' u' : State, exec (.bqcomp x) s = .next s' ∧ exec (.bqcomp x) u = .next u' ∧
      s'.filt = u'.filt ∧ s'.result = u'.result

/-! ## Sample pipeline, packing, fill (`43_pack_fill.md`) -/

/-- R180: `Q15` halves with floor and saturates to 16 bits, setting the sticky `STATUS.CLIP` exactly when it saturates. -/
def Obligations.Q15SaturatesWithStickyClip : Prop :=
  ∀ (y : FX) (v : Int) (s : State), v * 2 ≤ y.toInt → y.toInt < (v + 1) * 2 →
    ∃ p : Pcm, p.toInt = (if v > 32767 then 32767 else if v < -32768 then -32768 else v) ∧
      exec (.q15 y) s = .next { s with
        status := { s.status with clip := s.status.clip || decide (v > 32767 ∨ v < -32768) }
        result := .pcm p }

/-- R181, R94: `PACK` puts the sample `Q15` gives into both channel fields and sets the flag `Q15` sets. -/
def Obligations.PackDuplicatesTheSample : Prop :=
  ∀ (y : FX) (s : State), ∃ (p : Pcm) (w : Word) (st : Status),
    exec (.q15 y) s = .next { s with status := st, result := .pcm p } ∧
    exec (.pack y) s = .next { s with status := st, result := .word w } ∧
    w.toNat = p.toNat * 65536 + p.toNat ∧ channelA w = p ∧ channelB w = p

/-- R182: `SAMPLE` is `RNGNEXT`, `WHITE`, `BROWN`, `BQCOMP`, each on what the one before gave; where one of the last two
overflows, none of the three pieces of state changes and the fault is that operation's. -/
def Obligations.SampleIsTheFourStages : Prop :=
  ∀ s : State, ∃ (s1 s2 s3 : State) (r : Word) (w : FX),
    exec .rngnext s = .next s1 ∧ s1.result = .word r ∧
    exec (.white r) s1 = .next s2 ∧ s2.result = .fx w ∧
    exec (.brown w) s2 = .next s3 ∧
    ((∃ (o y : FX) (s4 : State), s3.result = .fx o ∧ exec (.bqcomp o) s3 = .next s4 ∧ s4.result = .fx y ∧
        exec .sample s = .next s4) ∨
     (s3.result = .fault .arithOverflow ∧ exec .sample s = .next (s.takeFault ⟨.arithOverflow, .brown⟩)) ∨
     (∃ (o : FX) (s4 : State), s3.result = .fx o ∧ exec (.bqcomp o) s3 = .next s4 ∧
        s4.result = .fault .arithOverflow ∧ exec .sample s = .next (s.takeFault ⟨.arithOverflow, .bqcomp⟩)))

/-- R128, R148, R182: with the default constants, inside the boundary and with histories of magnitude below 2^28, `SAMPLE` gives a
sample; it draws one random word, and nothing but the three pieces of pipeline state changes. -/
def Obligations.SampleCompletesWithSmallHistory : Prop :=
  ∀ s : State, s.cfg.DefaultConstants → NoiseInv s →
    (∀ i, -268435456 < (s.filt.xHist.get i).toInt ∧ (s.filt.xHist.get i).toInt < 268435456) →
    (∀ i, -268435456 < (s.filt.yHist.get i).toInt ∧ (s.filt.yHist.get i).toInt < 268435456) →
    ∃ (n y : FX) (f : FilterState), exec .sample s = .next { s with
      rngState := (rngNext s.rngState).1, noiseState := n, filt := f, result := .fx y }

/-- R66, R183: `BUFWR` to a producer-owned buffer writes that one word and no other; to an engine-owned one it raises
OwnershipViolation. -/
def Obligations.BufwrWritesOneWord : Prop :=
  ∀ (b : BufId) (i : Nat) (v : Word) (s : State), i < s.cfg.bufWords →
    (s.owner.get b = .P → ∃ m : Three Memory,
      exec (.bufwr b i v) s = .next { s with buf := m, result := .unit } ∧
      State.memRead { s with buf := m } b i = v ∧
      (∀ (c : BufId) (j : Nat), ¬ (c = b ∧ j = i) → State.memRead { s with buf := m } c j = s.memRead c j)) ∧
    (s.owner.get b = .E → exec (.bufwr b i v) s = .next (s.takeFault ⟨.ownershipViolation, .bufwr⟩))

/-- R61: an address outside [0, N-1] does not exist; `BUFWR` there is refused by name. -/
def Obligations.BufwrRefusesMissingAddress : Prop :=
  ∀ (b : BufId) (i : Nat) (v : Word) (s : State), (s.cfg.bufWords : Nat) ≤ i →
    exec (.bufwr b i v) s = .refused .noSuchIndex

/-- R184: `FILL b` is N fill steps in index order, each `SAMPLE`, `PACK`, `BUFWR`, and counts one buffer more. That it is one
operation of a trace is the model's reading (log 13). -/
def Obligations.FillIsNFillSteps : Prop :=
  ∀ (b : BufId) (s t : State), fillByHand b s.cfg.bufWords 0 s = some t →
    exec (.fill b) s = .next { t with genCount := s.genCount + 1, result := .unit }

/-- R184, R128: `FILL` completes whatever N is when the filter has no feedback (`C_A1 = C_A2 = 0`), the other constants are the
defaults, the walk is inside the boundary, the inputs in the history are small and the producer owns the buffer: every word of
the buffer is written, and no other buffer. That `FILL` is one operation, with no agent's step between its words, is the
model's reading (log 13). -/
def Obligations.FillCompletesWithoutFeedback : Prop :=
  ∀ (b : BufId) (s : State),
    ({ s.cfg with cA1 := Config.default.cA1, cA2 := Config.default.cA2 } : Config).DefaultConstants →
    s.cfg.cA1 = 0 → s.cfg.cA2 = 0 → NoiseInv s → s.owner.get b = .P →
    (∀ i, -268435456 < (s.filt.xHist.get i).toInt ∧ (s.filt.xHist.get i).toInt < 268435456) →
    ∃ t : State, exec (.fill b) s = .next t ∧
      t = { s with
        rngState := t.rngState, noiseState := t.noiseState, filt := t.filt, buf := t.buf
        status := { s.status with clip := t.status.clip }, genCount := s.genCount + 1, result := .unit } ∧
      (∀ i : Nat, i < s.cfg.bufWords → ((t.buf.get b).read i).isSome) ∧
      (∀ c, c ≠ b → t.buf.get c = s.buf.get c)

/-- R184: a fault in fill step `n` leaves words 0 to n-1 written; the fault is `SAMPLE`'s or `BUFWR`'s. -/
def Obligations.FillFaultKeepsEarlierWords : Prop :=
  ∀ (b : BufId) (n : Nat) (s t u : State), n < s.cfg.bufWords → fillByHand b n 0 s = some t →
    (∀ c, exec .sample t = .next u → u.result = .fault c →
      exec (.fill b) s = .next { t with status := u.status, result := .fault c }) ∧
    (s.owner.get b = .E → exec .sample t = .next u → (∃ y, u.result = .fx y) →
      exec (.fill b) s = .next (t.takeFault ⟨.ownershipViolation, .bufwr⟩))

/-! ## Transfer engine (`44_transfer_engine.md`) -/

/-- R202: `DSTART` checks the protocol, then the ownership; else the buffer goes to the engine and runs at once in slot `HEAD`. -/
def Obligations.DstartStartsTheTransfer : Prop :=
  ∀ (b : BufId) (s : State),
    (s.cnt ≠ 0 → exec (.dstart b) s = .next (s.takeFault ⟨.protocolViolation, .dstart⟩)) ∧
    (s.cnt = 0 ∧ s.owner.get b = .E → exec (.dstart b) s = .next (s.takeFault ⟨.ownershipViolation, .dstart⟩)) ∧
    (s.cnt = 0 ∧ s.owner.get b = .P → exec (.dstart b) s = .next { s with
      owner := s.owner.set b .E, slot := s.slot.set s.head ⟨.running, some b, 0⟩, cnt := 1, result := .unit })

/-- R203: `DISDONE` answers for the oldest outstanding transfer and writes nothing. -/
def Obligations.DisdoneAnswersForTheOldest : Prop :=
  ∀ s : State, ∃ d : Bool, exec .disdone s = .next { s with result := .flag d } ∧
    (d = true ↔ 1 ≤ s.cnt.val ∧ (s.slot.get s.head).st = .done)

/-- R204 case A: with one transfer outstanding, `DNEXT` binds the buffer to the other slot: armed behind a running transfer,
started at once behind a finished one. -/
def Obligations.DnextBindsTheOtherSlot : Prop :=
  ∀ (b : BufId) (s : State), s.cnt = 1 → s.owner.get b = .P → (s.slot.get s.head).st ≠ .idle →
    exec (.dnext b) s = .next { s with
      owner := s.owner.set b .E
      slot := s.slot.set (1 - s.head)
        ⟨if (s.slot.get s.head).st = .running then .idle else .running, some b, 0⟩
      cnt := 2
      result := .buffer none }

/-- R204 case B, R210: with two outstanding and the oldest done, `DNEXT` reclaims the old buffer, re-arms its slot with the new one
(started at once when the engine had run out) and makes the other transfer the oldest. -/
def Obligations.DnextReclaimsTheOldest : Prop :=
  ∀ (b old : BufId) (s : State), s.cnt = 2 → s.owner.get b = .P → (s.slot.get s.head).st = .done →
    (s.slot.get s.head).buf = some old → (s.slot.get (1 - s.head)).st ≠ .idle →
    exec (.dnext b) s = .next { s with
      owner := (s.owner.set old .P).set b .E
      slot := s.slot.set s.head
        ⟨if (s.slot.get (1 - s.head)).st = .running then .idle else .running, some b, 0⟩
      head := 1 - s.head
      result := .buffer (some old) }

/-- R204, R290: the faults of `DNEXT` in their order: nothing outstanding, engine-owned buffer, both slots busy. -/
def Obligations.DnextFaultsInOrder : Prop :=
  ∀ (b : BufId) (s : State),
    (s.cnt = 0 → exec (.dnext b) s = .next (s.takeFault ⟨.protocolViolation, .dnext⟩)) ∧
    (s.cnt ≠ 0 ∧ s.owner.get b = .E → exec (.dnext b) s = .next (s.takeFault ⟨.ownershipViolation, .dnext⟩)) ∧
    (s.cnt = 2 ∧ s.owner.get b = .P ∧ (s.slot.get s.head).st ≠ .done →
      exec (.dnext b) s = .next (s.takeFault ⟨.protocolViolation, .dnext⟩))

/-- R205: `DWAIT` faults with nothing outstanding, holds while the oldest transfer is not done, else reclaims its buffer and leaves
its slot empty. A hold changes nothing but the model's result port (log 3, 4). -/
def Obligations.DwaitReclaimsWithoutReplacement : Prop :=
  ∀ s : State,
    (s.cnt = 0 → exec .dwait s = .next (s.takeFault ⟨.protocolViolation, .dwait⟩)) ∧
    (s.cnt ≠ 0 ∧ (s.slot.get s.head).st ≠ .done → exec .dwait s = .next { s with result := .held }) ∧
    (∀ old : BufId, s.cnt ≠ 0 ∧ (s.slot.get s.head).st = .done ∧ (s.slot.get s.head).buf = some old →
      ∃ c : Fin 3, c.val + 1 = s.cnt.val ∧ exec .dwait s = .next { s with
        owner := s.owner.set old .P
        slot := s.slot.set s.head ⟨.idle, none, 0⟩
        head := 1 - s.head
        cnt := c
        result := .buffer (some old) })

/-- R208: `DXFER` appends the running slot's next word to the FIFO; the last word makes the slot done and starts an armed other slot
in the same step. -/
def Obligations.DxferMovesOneWord : Prop :=
  ∀ (k : Fin 2) (b : BufId) (s : State), (s.slot.get k).st = .running → (s.slot.get (1 - k)).st ≠ .running →
    (s.slot.get k).buf = some b → (s.slot.get k).idx < s.cfg.bufWords → s.fifo.length < s.cfg.fifoDepth →
    ∃ sl : Two Slot,
      exec .dxfer s = .next { s with
        fifo := s.fifo ++ [s.memRead b (s.slot.get k).idx], slot := sl, result := .unit } ∧
      sl.get k = ⟨if (s.slot.get k).idx + 1 = s.cfg.bufWords then .done else .running, some b,
        (s.slot.get k).idx + 1⟩ ∧
      sl.get (1 - k) =
        (if (s.slot.get k).idx + 1 = s.cfg.bufWords ∧ (s.slot.get (1 - k)).st = .idle ∧
            (s.slot.get (1 - k)).buf ≠ none
          then ⟨.running, (s.slot.get (1 - k)).buf, 0⟩ else s.slot.get (1 - k))

/-- R207: with no slot running, or no room in the FIFO, the engine has no step and nothing changes but the model's result port (log 3). -/
def Obligations.DxferHoldsWithoutWork : Prop :=
  ∀ s : State, (∀ k, (s.slot.get k).st ≠ .running) ∨ (s.cfg.fifoDepth : Nat) ≤ s.fifo.length →
    exec .dxfer s = .next { s with result := .held }

/-- R201: `KICK` starts an armed slot when nothing runs, the oldest first, and else changes no slot. -/
def Obligations.KickStartsTheOldestArmed : Prop :=
  ∀ s : State, ∃ sl : Two Slot, exec .kick s = .next { s with slot := sl, result := .unit } ∧
    ((∃ k, (s.slot.get k).st = .running) → sl = s.slot) ∧
    ((∀ k, (s.slot.get k).st ≠ .running) →
      ∀ k, sl.get k =
        if (s.slot.get k).st = .idle ∧ (s.slot.get k).buf ≠ none ∧
            (k = s.head ∨ ¬ ((s.slot.get s.head).st = .idle ∧ (s.slot.get s.head).buf ≠ none))
        then ⟨.running, (s.slot.get k).buf, 0⟩ else s.slot.get k)

/-- R206: every step, of any operation with any operands, keeps all seven engine invariants. -/
def Obligations.EngineInvKeptByEveryStep : Prop :=
  ∀ s t : State, EngineInv s → step s = .next t → EngineInv t

/-- R35, R67: no operation but `RESET` changes a word of a buffer the engine owns. -/
def Obligations.EngineOwnedBufferNeverMutated : Prop :=
  ∀ (i : Instr) (s t : State) (b : BufId) (j : Nat), i ≠ .reset → s.owner.get b = .E → exec i s = .next t →
    t.memRead b j = s.memRead b j

/-! ## Storage -/

/-- R28, R61: every step keeps the buffers in canonical form with indices in [0, N-1], and the FIFO within its depth. The
canonical form is the model's (log 9). -/
def Obligations.StorageInvKeptByEveryStep : Prop :=
  ∀ s t : State, StorageInv s → step s = .next t → StorageInv t

/-! ## Scheduler (`45_scheduler.md`) -/

/-- R231: in a fill state `SCHSTEP` writes the next sample's word at `FILL_I`, advances `FILL_I`, and at the last word counts the
buffer and goes to the successor; a fault leaves everything but `STATUS`. -/
def Obligations.SchstepFillsOneWord : Prop :=
  ∀ (b : BufId) (n : Sch) (s : State), fillStateOf s = some (b, n) → s.status.fault = 0 →
    s.sched.fillI < s.cfg.bufWords →
    (∀ t, fillByHand b 1 s.sched.fillI s = some t →
      exec .schstep s = .next (if s.sched.fillI + 1 = s.cfg.bufWords
        then { t with sched := ⟨n, 0, s.sched.free⟩, genCount := s.genCount + 1, result := .unit }
        else { t with sched := { s.sched with fillI := s.sched.fillI + 1 }, result := .unit })) ∧
    (∀ t c, exec .sample s = .next t → t.result = .fault c → exec .schstep s = .next t) ∧
    (s.owner.get b = .E → ∀ t y, exec .sample s = .next t → t.result = .fx y →
      exec .schstep s = .next (s.takeFault ⟨.ownershipViolation, .bufwr⟩))

/-- R232, R234, R236, R237, R240: in its command states `SCHSTEP` performs the engine command, records what it gives and goes to the
next state; a command that faults, or a `DWAIT` that holds, leaves `SCH`, `FILL_I` and `FREE`. -/
def Obligations.SchstepIssuesTheCommand : Prop :=
  ∀ s t : State, s.status.fault = 0 →
    (s.sched.sch = .primeStart → exec (.dstart 0) s = .next t →
      (t.result = .unit → exec .schstep s = .next { t with sched := { s.sched with sch := .primeFill1 } }) ∧
      (∀ c, t.result = .fault c → exec .schstep s = .next t)) ∧
    (s.sched.sch = .primeNext1 → exec (.dnext 1) s = .next t →
      (∀ r, t.result = .buffer r →
        exec .schstep s = .next { t with sched := { s.sched with sch := .primeFill2 }, result := .unit }) ∧
      (∀ c, t.result = .fault c → exec .schstep s = .next t)) ∧
    (s.sched.sch = .primeWait → exec .dwait s = .next t →
      (∀ r, t.result = .buffer r → exec .schstep s = .next { t with
        sched := { s.sched with sch := .primeNext2, free := r }, result := .unit }) ∧
      (t.result = .held → exec .schstep s = .next { s with result := .held }) ∧
      (∀ c, t.result = .fault c → exec .schstep s = .next t)) ∧
    (s.sched.sch = .primeNext2 → exec (.dnext 2) s = .next t →
      (∀ r, t.result = .buffer r →
        exec .schstep s = .next { t with sched := { s.sched with sch := .runPoll }, result := .unit }) ∧
      (∀ c, t.result = .fault c → exec .schstep s = .next t)) ∧
    (∀ b, s.sched.sch = .runNext → s.sched.free = some b → exec (.dnext b) s = .next t →
      (∀ r, t.result = .buffer r → exec .schstep s = .next { t with
        sched := { s.sched with sch := .runPoll, free := r }, result := .unit }) ∧
      (∀ c, t.result = .fault c → exec .schstep s = .next t))

/-- R238: `RUN_POLL` goes to `RUN_FILL` when the oldest transfer is done and else changes nothing. -/
def Obligations.SchstepPolls : Prop :=
  ∀ s : State, s.status.fault = 0 → s.sched.sch = .runPoll →
    exec .schstep s = .next { s with
      sched := { s.sched with sch := if 1 ≤ s.cnt.val ∧ (s.slot.get s.head).st = .done then .runFill else .runPoll }
      result := .unit }

/-- R230, R291: with a fault recorded the PRODUCER takes no step: `SCH`, `FILL_I`, `FREE` and all else keep their values but the
model's result port (log 3). -/
def Obligations.SchstepStopsAfterFault : Prop :=
  ∀ s : State, s.status.fault ≠ 0 → exec .schstep s = .next { s with result := .held }

/-- R242, R243, R206: while only the agents of NGAP act, every step completes and keeps the roles of the buffers; no
OwnershipViolation and no ProtocolViolation is ever recorded. -/
def Obligations.PipelineRunsForEver : Prop :=
  ∀ s : State, PipelineInv s → s.program = [] →
    ∃ t : State, step s = .next t ∧ PipelineInv t ∧ t.program = [] ∧ t.cfg = s.cfg

/-! ## Sequencer (`46_sequencer.md`) -/

/-- R252, R253: the three cases of a tick: the clock half, the stall, the set-up half. The spec says it for `CYCLES_PER_BIT` = 2; that
the tick is the same for any other value is the model's choice (DESIGN CHOICE, log 21). -/
def Obligations.SqtickShiftsHalfABit : Prop :=
  ∀ s : State,
    (s.seq.phase = true → exec .sqtick s = .next { s with
      seq := ⟨s.seq.osr, s.seq.bitcnt + 1, false, s.seq.started⟩
      wires := ⟨s.wires.sd, true, s.wires.ws⟩
      wireLog := s.wireLog ++ [(s.wires.ws, s.wires.sd)]
      result := .unit }) ∧
    (s.seq.phase = false ∧ s.seq.bitcnt = 0 ∧ s.fifo = [] → exec .sqtick s = .next { s with
      status := { s.status with underrun := s.status.underrun || s.seq.started }, result := .unit }) ∧
    (∀ w rest, s.seq.phase = false ∧ s.seq.bitcnt = 0 ∧ s.fifo = w :: rest → ∃ o : Word,
      o.toNat = w.toNat * 2 % 2 ^ 32 ∧ exec .sqtick s = .next { s with
        fifo := rest, seq := ⟨o, 0, true, true⟩
        wires := ⟨decide (2 ^ 31 ≤ w.toNat), false, false⟩, result := .unit }) ∧
    (s.seq.phase = false ∧ s.seq.bitcnt ≠ 0 → ∃ o : Word,
      o.toNat = s.seq.osr.toNat * 2 % 2 ^ 32 ∧ exec .sqtick s = .next { s with
        seq := ⟨o, s.seq.bitcnt, true, s.seq.started⟩
        wires := ⟨decide (2 ^ 31 ≤ s.seq.osr.toNat), false, decide (16 ≤ s.seq.bitcnt.val)⟩, result := .unit })

/-- R95, R254, R260: 64 ticks from a frame boundary with a word in the FIFO send that word: 32 log entries, `WS` sixteen 0 then
sixteen 1, `SD` the bits of the word from bit 31 down; nothing else in NGAP changes but the sequencer's own registers.
The spec says it for `CYCLES_PER_BIT` = 2; that
the tick is the same for any other value is the model's choice (DESIGN CHOICE, log 21). -/
def Obligations.FrameSendsTheWord : Prop :=
  ∀ (w : Word) (rest : List Word) (s : State), s.seq.phase = false → s.seq.bitcnt = 0 → s.fifo = w :: rest →
    runOps Instr.frame s = .next { s with
      fifo := rest
      seq := ⟨0, 0, false, true⟩
      wires := ⟨w.getLsbD 0, true, true⟩
      wireLog := s.wireLog ++ frameLog w
      result := .unit }

/-- R257, R96: `DIVCALC` rounds 256·base/den to nearest, ties up, and packs it; it raises ConfigReserved when the integer part is 0
or does not fit; it writes no register. -/
def Obligations.DivcalcRoundsToNearest : Prop :=
  ∀ (p q k : ℕ+) (raw : Nat) (s : State),
    let den : Nat := q * k
    2 * den * raw ≤ 512 * (p : Nat) + den → 512 * (p : Nat) + den < 2 * den * (raw + 1) →
    (1 ≤ raw / 256 ∧ raw / 256 ≤ 65535 → ∃ w : Word, w.toNat = raw / 256 * 65536 + raw % 256 * 256 ∧
      exec (.divcalc p q k) s = .next { s with result := .word w }) ∧
    (raw / 256 = 0 ∨ 65535 < raw / 256 →
      exec (.divcalc p q k) s = .next (s.takeFault ⟨.configReserved, .divcalc⟩))

/-! ## Status, faults, configuration -/

/-- R97: the 32-bit layout of `STATUS`. -/
def Obligations.StatusLayout : Prop :=
  ∀ s : Status, s.toWord.toNat =
    s.fault.toNat + 16 * s.faultOp.toNat + (if s.underrun then 4096 else 0) + (if s.clip then 8192 else 0)

/-- R281, R282: a fault writes the code of its cause and the identifier of its operation only if none is recorded yet; every
other field of the machine keeps its value. -/
def Obligations.FirstFaultIsRecorded : Prop :=
  ∀ (c : Cause) (o : OpId) (s : State), ∃ st : Status,
    s.takeFault ⟨c, o⟩ = { s with status := st, result := .fault c } ∧
    st.underrun = s.status.underrun ∧ st.clip = s.status.clip ∧
    (s.status.fault ≠ 0 → st = s.status) ∧
    (s.status.fault = 0 → st.faultOp = o.code ∧
      st.fault.toNat = (match c with
        | .arithOverflow => 1
        | .ownershipViolation => 2
        | .protocolViolation => 3
        | .configReserved => 4))

/-- R32, R97, R281, R292: no operation but `RESET` clears a field of `STATUS` or replaces a recorded fault, and no code above 4 is ever
written. -/
def Obligations.StatusClearedOnlyByReset : Prop :=
  ∀ (i : Instr) (s t : State), i ≠ .reset → exec i s = .next t →
    (s.status.fault ≠ 0 → t.status.fault = s.status.fault ∧ t.status.faultOp = s.status.faultOp) ∧
    (s.status.fault = 0 → t.status.fault.toNat ≤ 4 ∧
      (t.status.fault = 0 → t.status.faultOp = s.status.faultOp)) ∧
    (s.status.underrun = true → t.status.underrun = true) ∧
    (s.status.clip = true → t.status.clip = true)

/-- R24, R31, R312: no operation, `RESET` included, writes the configuration: the nine constants, `CLKDIV`, `SEED` and the structural
parameters. The model's stream and counts are no operation's either (log 2, 5, 16). -/
def Obligations.ConfigurationNeverWritten : Prop :=
  ∀ (i : Instr) (s t : State), exec i s = .next t →
    t.cfg = s.cfg ∧ t.program = s.program ∧ t.choices = s.choices ∧ (i ≠ .reset → t.resetCount = s.resetCount)

/-- R295: what each agent's step may touch. -/
def Obligations.AgentsTouchOnlyTheirState : Prop :=
  ∀ s t : State,
    (exec .schstep s = .next t → t.fifo = s.fifo ∧ t.seq = s.seq ∧ t.wires = s.wires ∧ t.wireLog = s.wireLog ∧
      t.status.underrun = s.status.underrun) ∧
    (exec .dxfer s = .next t → t = { s with fifo := t.fifo, slot := t.slot, result := t.result } ∧
      ∃ ws, t.fifo = s.fifo ++ ws) ∧
    (exec .sqtick s = .next t → t = { s with
      fifo := t.fifo, seq := t.seq, wires := t.wires, wireLog := t.wireLog, result := t.result
      status := { s.status with underrun := t.status.underrun } } ∧ ∃ ws, s.fifo = ws ++ t.fifo)

/-! ## Reset (`70_reset_and_hazards.md`) -/

/-- R311, R36: `RESET` in any state gives every register its reset value, keeps the configuration, and records ConfigReserved for
a reserved seed, else for a reserved `CLKDIV`. The buffers list no written word: each word is the draw of this reset (log 6). -/
def Obligations.ResetGivesTheResetState : Prop :=
  ∀ s : State, ∃ t : State, exec .reset s = .next t ∧
    t.cfg = s.cfg ∧
    (s.cfg.rng = .xs64 → t.rngState = .xs64 s.cfg.seed) ∧
    (s.cfg.rng = .other → t.rngState = .other (Config.otherRngInit s.cfg.seed)) ∧
    t.noiseState = 0 ∧ t.filt = ⟨⟨0, 0, 0⟩, 0, ⟨0, 0⟩, 0⟩ ∧
    (∀ b i, t.memRead b i = Config.bufDraw t.resetCount b i) ∧ t.resetCount = s.resetCount + 1 ∧
    (∀ b, t.owner.get b = .P) ∧ (∀ k, t.slot.get k = ⟨.idle, none, 0⟩) ∧ t.head = 0 ∧ t.cnt = 0 ∧ t.fifo = [] ∧
    t.seq = ⟨0, 0, false, false⟩ ∧ t.wires = ⟨false, false, false⟩ ∧
    t.sched = ⟨.primeFill0, 0, none⟩ ∧ t.wireLog = [] ∧ t.genCount = 0 ∧
    (let badSeed := s.cfg.rng = .xs64 ∧ s.cfg.seed = 0
     let badDiv := s.cfg.clkdiv.toNat / 65536 = 0 ∨ s.cfg.clkdiv.toNat % 256 ≠ 0
     (badSeed → t.status = ⟨4, 0x10, false, false⟩) ∧
     (¬ badSeed ∧ badDiv → t.status = ⟨4, 0x70, false, false⟩) ∧
     (¬ badSeed ∧ ¬ badDiv → t.status = ⟨0, 0, false, false⟩))

/-- R36, R91, R6: the state after reset in the default configuration. The values of `SEED`, `RNG` and `CLKDIV` are the model's choice
(log 7). -/
def Obligations.ResetValues : Prop :=
  let s := State.reset
  s.noiseState = 0 ∧ s.filt = ⟨⟨0, 0, 0⟩, 0, ⟨0, 0⟩, 0⟩ ∧ s.owner = ⟨.P, .P, .P⟩ ∧
  s.slot = ⟨⟨.idle, none, 0⟩, ⟨.idle, none, 0⟩⟩ ∧ s.head = 0 ∧ s.cnt = 0 ∧ s.fifo = [] ∧
  s.seq = ⟨0, 0, false, false⟩ ∧ s.wires = ⟨false, false, false⟩ ∧ s.status = ⟨0, 0, false, false⟩ ∧
  s.sched = ⟨.primeFill0, 0, none⟩ ∧ s.wireLog = [] ∧ s.genCount = 0 ∧
  s.rngState = rngInit s.cfg.rng s.cfg.seed ∧
  s.cfg.cB0.toInt = 272 ∧ s.cfg.cB1.toInt = 0 ∧ s.cfg.cB2.toInt = -272 ∧ s.cfg.cA1.toInt = -130502 ∧
  s.cfg.cA2.toInt = 64993 ∧ s.cfg.cLeak.toInt = 65339 ∧ s.cfg.cStep.toInt = 655 ∧ s.cfg.cBound.toInt = 16384 ∧
  s.cfg.cVol.toInt = 16384 ∧
  s.cfg.bufWords = 220 ∧ s.cfg.fifoDepth = 4 ∧ s.cfg.cyclesPerBit = 2 ∧ s.cfg.monoMode = .duplicate ∧ s.cfg.ticksPerFrame = 64

/-- R36, R206, R242, R146: every invariant stated above holds at reset: the engine's, the storage's, the pipeline's, the walk's. -/
def Obligations.InvariantsHoldAtReset : Prop :=
  EngineInv State.reset ∧ StorageInv State.reset ∧ PipelineInv State.reset ∧ NoiseInv State.reset ∧
  State.reset.cfg.DefaultConstants ∧ State.reset.program = []

/-! ## Decoding and stepping -/

/-- R98: identifier bytes of one operation of every family decode to that operation. The operand bytes are the model's (log 1). -/
def Obligations.DecodeReadsIdentifiers : Prop :=
  decode [0x01, 0x00, 0x40, 0x00, 0x00, 0x00, 0xC0, 0xFF, 0xFF] = .ok (.fxadd 0x00004000 0xFFFFC000, []) ∧
  decode [0x12, 0xAE, 0xE6, 0xBD, 0xF2] = .ok (.white 0xF2BDE6AE, []) ∧
  decode [0x23, 0x00, 0x00, 0x01, 0x00] = .ok (.bqcomp 0x00010000, []) ∧
  decode [0x33, 0x01, 0x02, 0x00, 0x00, 0x00, 0xEF, 0xBE, 0xAD, 0xDE] = .ok (.bufwr 1 2 0xDEADBEEF, []) ∧
  decode [0x42, 0x02] = .ok (.dnext 2, []) ∧
  decode [0x50, 0x44, 0x60] = .ok (.schstep, [0x44, 0x60]) ∧
  decode [0x60] = .ok (.sqtick, []) ∧
  decode [0x70] = .ok (.reset, [])

/-- Every operation whose operands fit the stream decodes from its encoding, with what follows it in the stream left over. The
operand fields are the model's (log 1). -/
def Obligations.DecodeInvertsEncode : Prop :=
  ∀ (i : Instr) (rest : List Byte), i.encodable = true → decode (encode i ++ rest) = .ok (i, rest)

/-- Every stream the decoder reads is the encoding of the operation it gives, followed by what it leaves over: no two encodings
mean the same operation (log 1). -/
def Obligations.EncodeInvertsDecode : Prop :=
  ∀ (bs rest : List Byte) (i : Instr), decode bs = .ok (i, rest) → bs = encode i ++ rest ∧ i.encodable = true

/-- When the stream holds an operation, the step is that operation, performed with the rest of the stream left (log 2). -/
def Obligations.StepRunsTheDecodedOperation : Prop :=
  ∀ (i : Instr) (rest : List Byte) (s : State), decode s.program = .ok (i, rest) →
    step s = exec i { s with program := rest }

/-- R100 (a), R99, R61: a stream that begins with an identifier not in the table, or with an operation whose buffer operand is none of
0, 1, 2, is refused by name. That operations come as a stream of bytes is the model's choice (log 2), and so is that the buffer
operand is the byte after the identifier (log 1). -/
def Obligations.ReservedOperationsRefused : Prop :=
  (∀ (c : Byte) (bs : List Byte) (s : State), (∀ o : OpId, o.code ≠ c) → s.program = c :: bs →
    step s = .refused .unknownIdentifier) ∧
  (∀ (o : OpId) (b : Byte) (bs : List Byte) (s : State),
    o = .bufwr ∨ o = .fill ∨ o = .dstart ∨ o = .dnext → 3 ≤ b.toNat → s.program = o.code :: b :: bs →
    step s = .refused .noSuchBuffer)

/-- R296: with no operation in the stream the step is the step of an agent that a free choice names, one more choice counted; the
agents a choice can name are exactly the enabled ones; and the enabled ones are: `SCHSTEP` with no fault recorded and no `DWAIT`
held in PRIME_WAIT, `DXFER` with a running slot and room in the FIFO, `SQTICK` always. The counter is the model's (log 5). -/
def Obligations.StepTakesAnyEnabledAgent : Prop :=
  (∀ s : State, s.program = [] →
    step s = exec (s.agentOf (Config.schedule s.choices)).op { s with choices := s.choices + 1 }) ∧
  (∀ (s : State) (a : Agent), s.enabled a = true ↔ ∃ k : Nat, s.agentOf k = a) ∧
  (∀ s : State, s.enabled .producer = true ↔
    s.status.fault = 0 ∧ ¬ (s.sched.sch = .primeWait ∧ s.cnt ≠ 0 ∧ (s.slot.get s.head).st ≠ .done)) ∧
  (∀ s : State, s.enabled .engine = true ↔
    (∃ k, (s.slot.get k).st = .running) ∧ s.fifo.length < s.cfg.fifoDepth) ∧
  (∀ s : State, s.enabled .sequencer = true) ∧
  Agent.producer.op = .schstep ∧ Agent.engine.op = .dxfer ∧ Agent.sequencer.op = .sqtick
end

