-- ==== Sys2Proof/Laws/State.lean ====
section
/-! SUPPORT. The fields of a state after each named update, and the entries of the small arrays after a write. -/
namespace Sys2Proof

variable {α : Type}

@[simp] theorem Three.get_set_same (t : Three α) (i : Fin 3) (v : α) : (t.set i v).get i = v := by
  match i with
  | 0 => rfl
  | 1 => rfl
  | 2 => rfl

theorem Three.get_set_of_ne (t : Three α) {i j : Fin 3} (v : α) (h : j ≠ i) : (t.set i v).get j = t.get j := by
  match i, j with
  | 0, 0 => exact absurd rfl h
  | 0, 1 => rfl
  | 0, 2 => rfl
  | 1, 0 => rfl
  | 1, 1 => exact absurd rfl h
  | 1, 2 => rfl
  | 2, 0 => rfl
  | 2, 1 => rfl
  | 2, 2 => exact absurd rfl h

theorem Three.get_set (t : Three α) (i j : Fin 3) (v : α) : (t.set i v).get j = if j = i then v else t.get j := by
  by_cases h : j = i
  · subst h; simp
  · simp [h, Three.get_set_of_ne]

@[simp] theorem Two.get_set_same (t : Two α) (i : Fin 2) (v : α) : (t.set i v).get i = v := by
  match i with
  | 0 => rfl
  | 1 => rfl

theorem Two.get_set_of_ne (t : Two α) {i j : Fin 2} (v : α) (h : j ≠ i) : (t.set i v).get j = t.get j := by
  match i, j with
  | 0, 0 => exact absurd rfl h
  | 0, 1 => rfl
  | 1, 0 => rfl
  | 1, 1 => exact absurd rfl h

theorem Two.get_set (t : Two α) (i j : Fin 2) (v : α) : (t.set i v).get j = if j = i then v else t.get j := by
  by_cases h : j = i
  · subst h; simp
  · simp [h, Two.get_set_of_ne]

/-- The other entry is another entry. -/
theorem other_ne (k : Fin 2) : 1 - k ≠ k := by
  match k with
  | 0 => decide
  | 1 => decide

@[simp] theorem other_other (k : Fin 2) : 1 - (1 - k) = k := by
  match k with
  | 0 => rfl
  | 1 => rfl

/-- An index of two is this one or the other. -/
theorem eq_or_eq_other (k j : Fin 2) : j = k ∨ j = 1 - k := by
  match k, j with
  | 0, 0 => exact .inl rfl
  | 0, 1 => exact .inr rfl
  | 1, 0 => exact .inr rfl
  | 1, 1 => exact .inl rfl

@[simp] theorem Two.get_set_other (t : Two α) (k : Fin 2) (v : α) : (t.set k v).get (1 - k) = t.get (1 - k) :=
  Two.get_set_of_ne t v (other_ne k)

end Sys2Proof

namespace Sys2Proof.Machine

variable (s : State)

@[simp] theorem State.ret_cfg (r : OpResult) : (s.ret r).cfg = s.cfg := rfl
@[simp] theorem State.ret_rngState (r : OpResult) : (s.ret r).rngState = s.rngState := rfl
@[simp] theorem State.ret_noiseState (r : OpResult) : (s.ret r).noiseState = s.noiseState := rfl
@[simp] theorem State.ret_filt (r : OpResult) : (s.ret r).filt = s.filt := rfl
@[simp] theorem State.ret_buf (r : OpResult) : (s.ret r).buf = s.buf := rfl
@[simp] theorem State.ret_owner (r : OpResult) : (s.ret r).owner = s.owner := rfl
@[simp] theorem State.ret_slot (r : OpResult) : (s.ret r).slot = s.slot := rfl
@[simp] theorem State.ret_head (r : OpResult) : (s.ret r).head = s.head := rfl
@[simp] theorem State.ret_cnt (r : OpResult) : (s.ret r).cnt = s.cnt := rfl
@[simp] theorem State.ret_fifo (r : OpResult) : (s.ret r).fifo = s.fifo := rfl
@[simp] theorem State.ret_seq (r : OpResult) : (s.ret r).seq = s.seq := rfl
@[simp] theorem State.ret_wires (r : OpResult) : (s.ret r).wires = s.wires := rfl
@[simp] theorem State.ret_status (r : OpResult) : (s.ret r).status = s.status := rfl
@[simp] theorem State.ret_sched (r : OpResult) : (s.ret r).sched = s.sched := rfl
@[simp] theorem State.ret_wireLog (r : OpResult) : (s.ret r).wireLog = s.wireLog := rfl
@[simp] theorem State.ret_genCount (r : OpResult) : (s.ret r).genCount = s.genCount := rfl
@[simp] theorem State.ret_program (r : OpResult) : (s.ret r).program = s.program := rfl
@[simp] theorem State.ret_result (r : OpResult) : (s.ret r).result = r := rfl
@[simp] theorem State.ret_choices (r : OpResult) : (s.ret r).choices = s.choices := rfl
@[simp] theorem State.ret_resetCount (r : OpResult) : (s.ret r).resetCount = s.resetCount := rfl

@[simp] theorem State.takeFault_cfg (e : Raise) : (s.takeFault e).cfg = s.cfg := rfl
@[simp] theorem State.takeFault_rngState (e : Raise) : (s.takeFault e).rngState = s.rngState := rfl
@[simp] theorem State.takeFault_noiseState (e : Raise) : (s.takeFault e).noiseState = s.noiseState := rfl
@[simp] theorem State.takeFault_filt (e : Raise) : (s.takeFault e).filt = s.filt := rfl
@[simp] theorem State.takeFault_buf (e : Raise) : (s.takeFault e).buf = s.buf := rfl
@[simp] theorem State.takeFault_owner (e : Raise) : (s.takeFault e).owner = s.owner := rfl
@[simp] theorem State.takeFault_slot (e : Raise) : (s.takeFault e).slot = s.slot := rfl
@[simp] theorem State.takeFault_head (e : Raise) : (s.takeFault e).head = s.head := rfl
@[simp] theorem State.takeFault_cnt (e : Raise) : (s.takeFault e).cnt = s.cnt := rfl
@[simp] theorem State.takeFault_fifo (e : Raise) : (s.takeFault e).fifo = s.fifo := rfl
@[simp] theorem State.takeFault_seq (e : Raise) : (s.takeFault e).seq = s.seq := rfl
@[simp] theorem State.takeFault_wires (e : Raise) : (s.takeFault e).wires = s.wires := rfl
@[simp] theorem State.takeFault_status (e : Raise) : (s.takeFault e).status = s.status.record e.cause e.op := rfl
@[simp] theorem State.takeFault_sched (e : Raise) : (s.takeFault e).sched = s.sched := rfl
@[simp] theorem State.takeFault_wireLog (e : Raise) : (s.takeFault e).wireLog = s.wireLog := rfl
@[simp] theorem State.takeFault_genCount (e : Raise) : (s.takeFault e).genCount = s.genCount := rfl
@[simp] theorem State.takeFault_program (e : Raise) : (s.takeFault e).program = s.program := rfl
@[simp] theorem State.takeFault_result (e : Raise) : (s.takeFault e).result = .fault e.cause := rfl
@[simp] theorem State.takeFault_choices (e : Raise) : (s.takeFault e).choices = s.choices := rfl
@[simp] theorem State.takeFault_resetCount (e : Raise) : (s.takeFault e).resetCount = s.resetCount := rfl

@[simp] theorem State.noteClip_cfg (y : FX) : (s.noteClip y).cfg = s.cfg := rfl
@[simp] theorem State.noteClip_rngState (y : FX) : (s.noteClip y).rngState = s.rngState := rfl
@[simp] theorem State.noteClip_noiseState (y : FX) : (s.noteClip y).noiseState = s.noiseState := rfl
@[simp] theorem State.noteClip_filt (y : FX) : (s.noteClip y).filt = s.filt := rfl
@[simp] theorem State.noteClip_buf (y : FX) : (s.noteClip y).buf = s.buf := rfl
@[simp] theorem State.noteClip_owner (y : FX) : (s.noteClip y).owner = s.owner := rfl
@[simp] theorem State.noteClip_slot (y : FX) : (s.noteClip y).slot = s.slot := rfl
@[simp] theorem State.noteClip_head (y : FX) : (s.noteClip y).head = s.head := rfl
@[simp] theorem State.noteClip_cnt (y : FX) : (s.noteClip y).cnt = s.cnt := rfl
@[simp] theorem State.noteClip_fifo (y : FX) : (s.noteClip y).fifo = s.fifo := rfl
@[simp] theorem State.noteClip_seq (y : FX) : (s.noteClip y).seq = s.seq := rfl
@[simp] theorem State.noteClip_wires (y : FX) : (s.noteClip y).wires = s.wires := rfl
@[simp] theorem State.noteClip_status (y : FX) : (s.noteClip y).status = s.status.withClip (q15 y).2 := rfl
@[simp] theorem State.noteClip_sched (y : FX) : (s.noteClip y).sched = s.sched := rfl
@[simp] theorem State.noteClip_wireLog (y : FX) : (s.noteClip y).wireLog = s.wireLog := rfl
@[simp] theorem State.noteClip_genCount (y : FX) : (s.noteClip y).genCount = s.genCount := rfl
@[simp] theorem State.noteClip_program (y : FX) : (s.noteClip y).program = s.program := rfl
@[simp] theorem State.noteClip_result (y : FX) : (s.noteClip y).result = s.result := rfl
@[simp] theorem State.noteClip_choices (y : FX) : (s.noteClip y).choices = s.choices := rfl
@[simp] theorem State.noteClip_resetCount (y : FX) : (s.noteClip y).resetCount = s.resetCount := rfl

@[simp] theorem State.setOwner_cfg (b : BufId) (o : Owner) : (s.setOwner b o).cfg = s.cfg := rfl
@[simp] theorem State.setOwner_rngState (b : BufId) (o : Owner) : (s.setOwner b o).rngState = s.rngState := rfl
@[simp] theorem State.setOwner_noiseState (b : BufId) (o : Owner) : (s.setOwner b o).noiseState = s.noiseState := rfl
@[simp] theorem State.setOwner_filt (b : BufId) (o : Owner) : (s.setOwner b o).filt = s.filt := rfl
@[simp] theorem State.setOwner_buf (b : BufId) (o : Owner) : (s.setOwner b o).buf = s.buf := rfl
@[simp] theorem State.setOwner_owner (b : BufId) (o : Owner) : (s.setOwner b o).owner = s.owner.set b o := rfl
@[simp] theorem State.setOwner_slot (b : BufId) (o : Owner) : (s.setOwner b o).slot = s.slot := rfl
@[simp] theorem State.setOwner_head (b : BufId) (o : Owner) : (s.setOwner b o).head = s.head := rfl
@[simp] theorem State.setOwner_cnt (b : BufId) (o : Owner) : (s.setOwner b o).cnt = s.cnt := rfl
@[simp] theorem State.setOwner_fifo (b : BufId) (o : Owner) : (s.setOwner b o).fifo = s.fifo := rfl
@[simp] theorem State.setOwner_seq (b : BufId) (o : Owner) : (s.setOwner b o).seq = s.seq := rfl
@[simp] theorem State.setOwner_wires (b : BufId) (o : Owner) : (s.setOwner b o).wires = s.wires := rfl
@[simp] theorem State.setOwner_status (b : BufId) (o : Owner) : (s.setOwner b o).status = s.status := rfl
@[simp] theorem State.setOwner_sched (b : BufId) (o : Owner) : (s.setOwner b o).sched = s.sched := rfl
@[simp] theorem State.setOwner_wireLog (b : BufId) (o : Owner) : (s.setOwner b o).wireLog = s.wireLog := rfl
@[simp] theorem State.setOwner_genCount (b : BufId) (o : Owner) : (s.setOwner b o).genCount = s.genCount := rfl
@[simp] theorem State.setOwner_program (b : BufId) (o : Owner) : (s.setOwner b o).program = s.program := rfl
@[simp] theorem State.setOwner_result (b : BufId) (o : Owner) : (s.setOwner b o).result = s.result := rfl
@[simp] theorem State.setOwner_choices (b : BufId) (o : Owner) : (s.setOwner b o).choices = s.choices := rfl
@[simp] theorem State.setOwner_resetCount (b : BufId) (o : Owner) : (s.setOwner b o).resetCount = s.resetCount := rfl

@[simp] theorem State.reclaimOwner_cfg (old : Option BufId) : (s.reclaimOwner old).cfg = s.cfg := rfl
@[simp] theorem State.reclaimOwner_rngState (old : Option BufId) : (s.reclaimOwner old).rngState = s.rngState := rfl
@[simp] theorem State.reclaimOwner_noiseState (old : Option BufId) : (s.reclaimOwner old).noiseState = s.noiseState := rfl
@[simp] theorem State.reclaimOwner_filt (old : Option BufId) : (s.reclaimOwner old).filt = s.filt := rfl
@[simp] theorem State.reclaimOwner_buf (old : Option BufId) : (s.reclaimOwner old).buf = s.buf := rfl
@[simp] theorem State.reclaimOwner_owner (old : Option BufId) : (s.reclaimOwner old).owner = releaseOwner s.owner old := rfl
@[simp] theorem State.reclaimOwner_slot (old : Option BufId) : (s.reclaimOwner old).slot = s.slot := rfl
@[simp] theorem State.reclaimOwner_head (old : Option BufId) : (s.reclaimOwner old).head = s.head := rfl
@[simp] theorem State.reclaimOwner_cnt (old : Option BufId) : (s.reclaimOwner old).cnt = s.cnt := rfl
@[simp] theorem State.reclaimOwner_fifo (old : Option BufId) : (s.reclaimOwner old).fifo = s.fifo := rfl
@[simp] theorem State.reclaimOwner_seq (old : Option BufId) : (s.reclaimOwner old).seq = s.seq := rfl
@[simp] theorem State.reclaimOwner_wires (old : Option BufId) : (s.reclaimOwner old).wires = s.wires := rfl
@[simp] theorem State.reclaimOwner_status (old : Option BufId) : (s.reclaimOwner old).status = s.status := rfl
@[simp] theorem State.reclaimOwner_sched (old : Option BufId) : (s.reclaimOwner old).sched = s.sched := rfl
@[simp] theorem State.reclaimOwner_wireLog (old : Option BufId) : (s.reclaimOwner old).wireLog = s.wireLog := rfl
@[simp] theorem State.reclaimOwner_genCount (old : Option BufId) : (s.reclaimOwner old).genCount = s.genCount := rfl
@[simp] theorem State.reclaimOwner_program (old : Option BufId) : (s.reclaimOwner old).program = s.program := rfl
@[simp] theorem State.reclaimOwner_result (old : Option BufId) : (s.reclaimOwner old).result = s.result := rfl
@[simp] theorem State.reclaimOwner_choices (old : Option BufId) : (s.reclaimOwner old).choices = s.choices := rfl
@[simp] theorem State.reclaimOwner_resetCount (old : Option BufId) : (s.reclaimOwner old).resetCount = s.resetCount := rfl

@[simp] theorem State.setSlot_cfg (k : Fin 2) (v : Slot) : (s.setSlot k v).cfg = s.cfg := rfl
@[simp] theorem State.setSlot_rngState (k : Fin 2) (v : Slot) : (s.setSlot k v).rngState = s.rngState := rfl
@[simp] theorem State.setSlot_noiseState (k : Fin 2) (v : Slot) : (s.setSlot k v).noiseState = s.noiseState := rfl
@[simp] theorem State.setSlot_filt (k : Fin 2) (v : Slot) : (s.setSlot k v).filt = s.filt := rfl
@[simp] theorem State.setSlot_buf (k : Fin 2) (v : Slot) : (s.setSlot k v).buf = s.buf := rfl
@[simp] theorem State.setSlot_owner (k : Fin 2) (v : Slot) : (s.setSlot k v).owner = s.owner := rfl
@[simp] theorem State.setSlot_slot (k : Fin 2) (v : Slot) : (s.setSlot k v).slot = s.slot.set k v := rfl
@[simp] theorem State.setSlot_head (k : Fin 2) (v : Slot) : (s.setSlot k v).head = s.head := rfl
@[simp] theorem State.setSlot_cnt (k : Fin 2) (v : Slot) : (s.setSlot k v).cnt = s.cnt := rfl
@[simp] theorem State.setSlot_fifo (k : Fin 2) (v : Slot) : (s.setSlot k v).fifo = s.fifo := rfl
@[simp] theorem State.setSlot_seq (k : Fin 2) (v : Slot) : (s.setSlot k v).seq = s.seq := rfl
@[simp] theorem State.setSlot_wires (k : Fin 2) (v : Slot) : (s.setSlot k v).wires = s.wires := rfl
@[simp] theorem State.setSlot_status (k : Fin 2) (v : Slot) : (s.setSlot k v).status = s.status := rfl
@[simp] theorem State.setSlot_sched (k : Fin 2) (v : Slot) : (s.setSlot k v).sched = s.sched := rfl
@[simp] theorem State.setSlot_wireLog (k : Fin 2) (v : Slot) : (s.setSlot k v).wireLog = s.wireLog := rfl
@[simp] theorem State.setSlot_genCount (k : Fin 2) (v : Slot) : (s.setSlot k v).genCount = s.genCount := rfl
@[simp] theorem State.setSlot_program (k : Fin 2) (v : Slot) : (s.setSlot k v).program = s.program := rfl
@[simp] theorem State.setSlot_result (k : Fin 2) (v : Slot) : (s.setSlot k v).result = s.result := rfl
@[simp] theorem State.setSlot_choices (k : Fin 2) (v : Slot) : (s.setSlot k v).choices = s.choices := rfl
@[simp] theorem State.setSlot_resetCount (k : Fin 2) (v : Slot) : (s.setSlot k v).resetCount = s.resetCount := rfl

@[simp] theorem State.kick_cfg : (s.kick).cfg = s.cfg := rfl
@[simp] theorem State.kick_rngState : (s.kick).rngState = s.rngState := rfl
@[simp] theorem State.kick_noiseState : (s.kick).noiseState = s.noiseState := rfl
@[simp] theorem State.kick_filt : (s.kick).filt = s.filt := rfl
@[simp] theorem State.kick_buf : (s.kick).buf = s.buf := rfl
@[simp] theorem State.kick_owner : (s.kick).owner = s.owner := rfl
@[simp] theorem State.kick_slot : (s.kick).slot = kickSlots s.head s.slot := rfl
@[simp] theorem State.kick_head : (s.kick).head = s.head := rfl
@[simp] theorem State.kick_cnt : (s.kick).cnt = s.cnt := rfl
@[simp] theorem State.kick_fifo : (s.kick).fifo = s.fifo := rfl
@[simp] theorem State.kick_seq : (s.kick).seq = s.seq := rfl
@[simp] theorem State.kick_wires : (s.kick).wires = s.wires := rfl
@[simp] theorem State.kick_status : (s.kick).status = s.status := rfl
@[simp] theorem State.kick_sched : (s.kick).sched = s.sched := rfl
@[simp] theorem State.kick_wireLog : (s.kick).wireLog = s.wireLog := rfl
@[simp] theorem State.kick_genCount : (s.kick).genCount = s.genCount := rfl
@[simp] theorem State.kick_program : (s.kick).program = s.program := rfl
@[simp] theorem State.kick_result : (s.kick).result = s.result := rfl
@[simp] theorem State.kick_choices : (s.kick).choices = s.choices := rfl
@[simp] theorem State.kick_resetCount : (s.kick).resetCount = s.resetCount := rfl

@[simp] theorem State.goto_cfg (n : Sch) : (s.goto n).cfg = s.cfg := rfl
@[simp] theorem State.goto_rngState (n : Sch) : (s.goto n).rngState = s.rngState := rfl
@[simp] theorem State.goto_noiseState (n : Sch) : (s.goto n).noiseState = s.noiseState := rfl
@[simp] theorem State.goto_filt (n : Sch) : (s.goto n).filt = s.filt := rfl
@[simp] theorem State.goto_buf (n : Sch) : (s.goto n).buf = s.buf := rfl
@[simp] theorem State.goto_owner (n : Sch) : (s.goto n).owner = s.owner := rfl
@[simp] theorem State.goto_slot (n : Sch) : (s.goto n).slot = s.slot := rfl
@[simp] theorem State.goto_head (n : Sch) : (s.goto n).head = s.head := rfl
@[simp] theorem State.goto_cnt (n : Sch) : (s.goto n).cnt = s.cnt := rfl
@[simp] theorem State.goto_fifo (n : Sch) : (s.goto n).fifo = s.fifo := rfl
@[simp] theorem State.goto_seq (n : Sch) : (s.goto n).seq = s.seq := rfl
@[simp] theorem State.goto_wires (n : Sch) : (s.goto n).wires = s.wires := rfl
@[simp] theorem State.goto_status (n : Sch) : (s.goto n).status = s.status := rfl
@[simp] theorem State.goto_sched (n : Sch) : (s.goto n).sched = { s.sched with sch := n } := rfl
@[simp] theorem State.goto_wireLog (n : Sch) : (s.goto n).wireLog = s.wireLog := rfl
@[simp] theorem State.goto_genCount (n : Sch) : (s.goto n).genCount = s.genCount := rfl
@[simp] theorem State.goto_program (n : Sch) : (s.goto n).program = s.program := rfl
@[simp] theorem State.goto_result (n : Sch) : (s.goto n).result = s.result := rfl
@[simp] theorem State.goto_choices (n : Sch) : (s.goto n).choices = s.choices := rfl
@[simp] theorem State.goto_resetCount (n : Sch) : (s.goto n).resetCount = s.resetCount := rfl

@[simp] theorem State.setFree_cfg (b : Option BufId) : (s.setFree b).cfg = s.cfg := rfl
@[simp] theorem State.setFree_rngState (b : Option BufId) : (s.setFree b).rngState = s.rngState := rfl
@[simp] theorem State.setFree_noiseState (b : Option BufId) : (s.setFree b).noiseState = s.noiseState := rfl
@[simp] theorem State.setFree_filt (b : Option BufId) : (s.setFree b).filt = s.filt := rfl
@[simp] theorem State.setFree_buf (b : Option BufId) : (s.setFree b).buf = s.buf := rfl
@[simp] theorem State.setFree_owner (b : Option BufId) : (s.setFree b).owner = s.owner := rfl
@[simp] theorem State.setFree_slot (b : Option BufId) : (s.setFree b).slot = s.slot := rfl
@[simp] theorem State.setFree_head (b : Option BufId) : (s.setFree b).head = s.head := rfl
@[simp] theorem State.setFree_cnt (b : Option BufId) : (s.setFree b).cnt = s.cnt := rfl
@[simp] theorem State.setFree_fifo (b : Option BufId) : (s.setFree b).fifo = s.fifo := rfl
@[simp] theorem State.setFree_seq (b : Option BufId) : (s.setFree b).seq = s.seq := rfl
@[simp] theorem State.setFree_wires (b : Option BufId) : (s.setFree b).wires = s.wires := rfl
@[simp] theorem State.setFree_status (b : Option BufId) : (s.setFree b).status = s.status := rfl
@[simp] theorem State.setFree_sched (b : Option BufId) : (s.setFree b).sched = { s.sched with free := b } := rfl
@[simp] theorem State.setFree_wireLog (b : Option BufId) : (s.setFree b).wireLog = s.wireLog := rfl
@[simp] theorem State.setFree_genCount (b : Option BufId) : (s.setFree b).genCount = s.genCount := rfl
@[simp] theorem State.setFree_program (b : Option BufId) : (s.setFree b).program = s.program := rfl
@[simp] theorem State.setFree_result (b : Option BufId) : (s.setFree b).result = s.result := rfl
@[simp] theorem State.setFree_choices (b : Option BufId) : (s.setFree b).choices = s.choices := rfl
@[simp] theorem State.setFree_resetCount (b : Option BufId) : (s.setFree b).resetCount = s.resetCount := rfl

@[simp] theorem State.driveBit_cfg (w : Word) : (s.driveBit w).cfg = s.cfg := rfl
@[simp] theorem State.driveBit_rngState (w : Word) : (s.driveBit w).rngState = s.rngState := rfl
@[simp] theorem State.driveBit_noiseState (w : Word) : (s.driveBit w).noiseState = s.noiseState := rfl
@[simp] theorem State.driveBit_filt (w : Word) : (s.driveBit w).filt = s.filt := rfl
@[simp] theorem State.driveBit_buf (w : Word) : (s.driveBit w).buf = s.buf := rfl
@[simp] theorem State.driveBit_owner (w : Word) : (s.driveBit w).owner = s.owner := rfl
@[simp] theorem State.driveBit_slot (w : Word) : (s.driveBit w).slot = s.slot := rfl
@[simp] theorem State.driveBit_head (w : Word) : (s.driveBit w).head = s.head := rfl
@[simp] theorem State.driveBit_cnt (w : Word) : (s.driveBit w).cnt = s.cnt := rfl
@[simp] theorem State.driveBit_fifo (w : Word) : (s.driveBit w).fifo = s.fifo := rfl
@[simp] theorem State.driveBit_seq (w : Word) : (s.driveBit w).seq = { s.seq with osr := w <<< 1, phase := true } := rfl
@[simp] theorem State.driveBit_wires (w : Word) : (s.driveBit w).wires = ⟨w.getLsbD 31, false, decide (16 ≤ s.seq.bitcnt.val)⟩ := rfl
@[simp] theorem State.driveBit_status (w : Word) : (s.driveBit w).status = s.status := rfl
@[simp] theorem State.driveBit_sched (w : Word) : (s.driveBit w).sched = s.sched := rfl
@[simp] theorem State.driveBit_wireLog (w : Word) : (s.driveBit w).wireLog = s.wireLog := rfl
@[simp] theorem State.driveBit_genCount (w : Word) : (s.driveBit w).genCount = s.genCount := rfl
@[simp] theorem State.driveBit_program (w : Word) : (s.driveBit w).program = s.program := rfl
@[simp] theorem State.driveBit_result (w : Word) : (s.driveBit w).result = s.result := rfl
@[simp] theorem State.driveBit_choices (w : Word) : (s.driveBit w).choices = s.choices := rfl
@[simp] theorem State.driveBit_resetCount (w : Word) : (s.driveBit w).resetCount = s.resetCount := rfl

@[simp] theorem State.clockBit_cfg : (s.clockBit).cfg = s.cfg := rfl
@[simp] theorem State.clockBit_rngState : (s.clockBit).rngState = s.rngState := rfl
@[simp] theorem State.clockBit_noiseState : (s.clockBit).noiseState = s.noiseState := rfl
@[simp] theorem State.clockBit_filt : (s.clockBit).filt = s.filt := rfl
@[simp] theorem State.clockBit_buf : (s.clockBit).buf = s.buf := rfl
@[simp] theorem State.clockBit_owner : (s.clockBit).owner = s.owner := rfl
@[simp] theorem State.clockBit_slot : (s.clockBit).slot = s.slot := rfl
@[simp] theorem State.clockBit_head : (s.clockBit).head = s.head := rfl
@[simp] theorem State.clockBit_cnt : (s.clockBit).cnt = s.cnt := rfl
@[simp] theorem State.clockBit_fifo : (s.clockBit).fifo = s.fifo := rfl
@[simp] theorem State.clockBit_seq : (s.clockBit).seq = { s.seq with bitcnt := s.seq.bitcnt + 1, phase := false } := rfl
@[simp] theorem State.clockBit_wires : (s.clockBit).wires = { s.wires with bclk := true } := rfl
@[simp] theorem State.clockBit_status : (s.clockBit).status = s.status := rfl
@[simp] theorem State.clockBit_sched : (s.clockBit).sched = s.sched := rfl
@[simp] theorem State.clockBit_wireLog : (s.clockBit).wireLog = s.wireLog ++ [(s.wires.ws, s.wires.sd)] := rfl
@[simp] theorem State.clockBit_genCount : (s.clockBit).genCount = s.genCount := rfl
@[simp] theorem State.clockBit_program : (s.clockBit).program = s.program := rfl
@[simp] theorem State.clockBit_result : (s.clockBit).result = s.result := rfl
@[simp] theorem State.clockBit_choices : (s.clockBit).choices = s.choices := rfl
@[simp] theorem State.clockBit_resetCount : (s.clockBit).resetCount = s.resetCount := rfl

@[simp] theorem State.applyReset_cfg : (s.applyReset).cfg = s.cfg := rfl
@[simp] theorem State.applyReset_rngState : (s.applyReset).rngState = rngInit s.cfg.rng s.cfg.seed := rfl
@[simp] theorem State.applyReset_noiseState : (s.applyReset).noiseState = 0 := rfl
@[simp] theorem State.applyReset_filt : (s.applyReset).filt = FilterState.clear := rfl
@[simp] theorem State.applyReset_buf : (s.applyReset).buf = ⟨[], [], []⟩ := rfl
@[simp] theorem State.applyReset_owner : (s.applyReset).owner = ⟨.P, .P, .P⟩ := rfl
@[simp] theorem State.applyReset_slot : (s.applyReset).slot = ⟨Slot.empty, Slot.empty⟩ := rfl
@[simp] theorem State.applyReset_head : (s.applyReset).head = 0 := rfl
@[simp] theorem State.applyReset_cnt : (s.applyReset).cnt = 0 := rfl
@[simp] theorem State.applyReset_fifo : (s.applyReset).fifo = [] := rfl
@[simp] theorem State.applyReset_seq : (s.applyReset).seq = ⟨0, 0, false, false⟩ := rfl
@[simp] theorem State.applyReset_wires : (s.applyReset).wires = ⟨false, false, false⟩ := rfl
@[simp] theorem State.applyReset_status : (s.applyReset).status = Status.ofConfig s.cfg := rfl
@[simp] theorem State.applyReset_sched : (s.applyReset).sched = ⟨.primeFill0, 0, none⟩ := rfl
@[simp] theorem State.applyReset_wireLog : (s.applyReset).wireLog = [] := rfl
@[simp] theorem State.applyReset_genCount : (s.applyReset).genCount = 0 := rfl
@[simp] theorem State.applyReset_program : (s.applyReset).program = s.program := rfl
@[simp] theorem State.applyReset_result : (s.applyReset).result = s.result := rfl
@[simp] theorem State.applyReset_choices : (s.applyReset).choices = s.choices := rfl
@[simp] theorem State.applyReset_resetCount : (s.applyReset).resetCount = s.resetCount + 1 := rfl

end Sys2Proof.Machine
end

