-- ==== Sys2Proof/Laws/Ops.lean ====
section
/-! SUPPORT. What each shared operation can do, said once: one specification lemma per operation. -/
namespace Sys2Proof.Machine

open Sys2Proof

/-! Arithmetic -/

/-- `fxOfInt` answers exactly the FX value of an integer in range (R127). -/
theorem fxOfInt_eq_some_iff (v : Int) (r : FX) :
    fxOfInt v = some r ↔ -2147483648 ≤ v ∧ v ≤ 2147483647 ∧ r.toInt = v := by
  unfold fxOfInt
  by_cases h : -2147483648 ≤ v ∧ v ≤ 2147483647
  · have hv : (BitVec.ofInt 32 v).toInt = v := by
      rw [BitVec.toInt_ofInt]; exact Int.bmod_eq_of_le (by omega) (by omega)
    rw [if_pos h]
    constructor
    · intro e; cases e; exact ⟨h.1, h.2, hv⟩
    · rintro ⟨-, -, e⟩
      rw [← e, BitVec.ofInt_toInt]
  · rw [if_neg h]
    constructor
    · intro e; cases e
    · rintro ⟨a, b, -⟩; exact absurd ⟨a, b⟩ h

/-- `fxOfInt` has no answer exactly outside the range (R127). -/
theorem fxOfInt_eq_none_iff (v : Int) : fxOfInt v = none ↔ v < -2147483648 ∨ v > 2147483647 := by
  unfold fxOfInt
  split <;> simp <;> omega

/-- The FX value of an integer in range exists. -/
theorem exists_fxOfInt {v : Int} (h1 : -2147483648 ≤ v) (h2 : v ≤ 2147483647) :
    ∃ r : FX, fxOfInt v = some r ∧ r.toInt = v :=
  have h : fxOfInt v = some (BitVec.ofInt 32 v) := if_pos ⟨h1, h2⟩
  ⟨_, h, ((fxOfInt_eq_some_iff v _).1 h).2.2⟩

/-- The bounds of an FX value. -/
theorem fx_bounds (a : FX) : -2147483648 ≤ a.toInt ∧ a.toInt ≤ 2147483647 := by
  have h1 := BitVec.le_toInt a
  have h2 := BitVec.toInt_lt (x := a)
  omega

/-- The negation in `WHITE` is `FXNEG` and never overflows (R144). -/
theorem white_negation_is_fxNeg (r : Word) : fxNeg (randMag r) = some (-(randMag r)) := by
  have hlt : (randMag r).toNat < 65536 := by
    simp only [randMag, BitVec.toNat_setWidth, BitVec.extractLsb'_toNat]
    omega
  have hm : (randMag r).toInt = (randMag r).toNat := by
    rw [BitVec.toInt_eq_toNat_cond]; omega
  rw [fxNeg, fxOfInt_eq_some_iff, BitVec.toInt_neg, hm]
  refine ⟨by omega, by omega, ?_⟩
  exact Int.bmod_eq_of_le (by omega) (by omega)

/-! Ending a step -/

/-- What an operation that ends by `conclude` answers: always a next state. -/
theorem conclude_eq (s : State) (x : Except Raise (OpResult × State)) :
    (∃ r t, x = .ok (r, t) ∧ conclude s x = .next (t.ret r)) ∨
    (∃ e, x = .error e ∧ conclude s x = .next (s.takeFault e)) := by
  match x with
  | .ok (r, t) => exact .inl ⟨r, t, rfl, rfl⟩
  | .error e => exact .inr ⟨e, rfl, rfl⟩

@[simp] theorem conclude_ok (s t : State) (r : OpResult) : conclude s (.ok (r, t)) = .next (t.ret r) := rfl

@[simp] theorem conclude_error (s : State) (e : Raise) : conclude s (.error e) = .next (s.takeFault e) := rfl

@[simp] theorem arith_some {α : Type} (o : OpId) (v : α) : arith o (some v) = .ok v := rfl

@[simp] theorem arith_none {α : Type} (o : OpId) :
    (arith o none : Except Raise α) = .error ⟨.arithOverflow, o⟩ := rfl

/-- A fault of an arithmetic result is ArithOverflow of the named operation. -/
theorem arith_eq_error {α : Type} {o : OpId} {x : Option α} {e : Raise} (h : arith o x = .error e) :
    x = none ∧ e = ⟨.arithOverflow, o⟩ := by
  cases x with
  | none => cases h; exact ⟨rfl, rfl⟩
  | some v => cases h

theorem arith_eq_ok {α : Type} {o : OpId} {x : Option α} {v : α} (h : arith o x = .ok v) : x = some v := by
  cases x with
  | none => cases h
  | some w => cases h; rfl

/-! Status -/

/-- The record of a fault (R281): the first stays. -/
theorem Status.record_eq (s : Status) (c : Cause) (o : OpId) :
    (s.fault = 0 ∧ s.record c o = { s with fault := c.code, faultOp := o.code }) ∨
    (s.fault ≠ 0 ∧ s.record c o = s) := by
  unfold Status.record
  split
  · exact .inl ⟨‹_›, rfl⟩
  · exact .inr ⟨‹_›, rfl⟩

/-- No cause has code 0. -/
theorem Cause.code_ne_zero (c : Cause) : c.code ≠ 0 := by cases c <;> decide

/-! Buffer memory -/

/-- Reading after a write: the written word at its index, every other index as before. -/
theorem Memory.read_write (m : Memory) (i j : Nat) (v : Word) :
    (m.write i v).read j = if j = i then some v else m.read j := by
  induction m with
  | nil => rfl
  | cons p m ih =>
    obtain ⟨a, w⟩ := p
    unfold Memory.write
    split
    · rfl
    · split
      · subst i
        by_cases h : j = a
        · simp [Memory.read, h]
        · simp [Memory.read, h]
      · by_cases h : j = a
        · subst h
          simp [Memory.read, show ¬ j = i by omega]
        · simp [Memory.read, h, ih]

/-- A list is in canonical form when its tail is and its head lies below the tail's. -/
theorem Memory.wf_cons (a : Nat) (w : Word) (m : Memory) :
    Memory.wf ((a, w) :: m) = true ↔ (∀ p ∈ m.head?, a < p.1) ∧ Memory.wf m = true := by
  cases m with
  | nil => simp [Memory.wf]
  | cons p m => obtain ⟨b, v⟩ := p; simp [Memory.wf]

/-- The head of a buffer after a write is the written entry or the old head. -/
theorem Memory.head_write (m : Memory) (i : Nat) (v : Word) (p : Nat × Word) (h : p ∈ (m.write i v).head?) :
    p.1 = i ∨ ∃ q ∈ m.head?, q.1 = p.1 := by
  cases m with
  | nil => simp [Memory.write] at h; exact .inl (by rw [← h])
  | cons q m =>
    obtain ⟨a, w⟩ := q
    unfold Memory.write at h
    split at h
    · simp at h; exact .inl (by rw [← h])
    · split at h
      · simp at h; exact .inl (by rw [← h]; exact Eq.symm ‹i = a›)
      · simp at h; exact .inr ⟨(a, w), by simp, by rw [← h]⟩

/-- A write keeps the canonical form. -/
theorem Memory.wf_write (m : Memory) (i : Nat) (v : Word) (h : m.wf = true) : (m.write i v).wf = true := by
  induction m with
  | nil => rfl
  | cons p m ih =>
    obtain ⟨a, w⟩ := p
    have h' := (Memory.wf_cons a w m).1 h
    unfold Memory.write
    split
    · exact (Memory.wf_cons _ _ _).2 ⟨by intro p hp; simp at hp; rw [← hp]; assumption, h⟩
    · split
      · exact (Memory.wf_cons _ _ _).2 h'
      · refine (Memory.wf_cons _ _ _).2 ⟨?_, ih h'.2⟩
        intro p hp
        rcases Memory.head_write m i v p hp with e | ⟨q, hq, e⟩
        · omega
        · rw [← e]; exact h'.1 q hq

/-- A write inside a buffer of `n` words keeps every index inside. -/
theorem Memory.within_write (m : Memory) (n i : Nat) (v : Word) (h : m.within n = true) (hi : i < n) :
    (m.write i v).within n = true := by
  induction m with
  | nil => simp [Memory.write, Memory.within, hi]
  | cons p m ih =>
    obtain ⟨a, w⟩ := p
    simp only [Memory.within, List.all_cons, Bool.and_eq_true, decide_eq_true_eq] at h ih
    unfold Memory.write
    split
    · simp [Memory.within, hi]; exact ⟨h.1, by simpa using h.2⟩
    · split
      · simp [Memory.within, h.1]; simpa using h.2
      · simp only [Memory.within, List.all_cons, Bool.and_eq_true, decide_eq_true_eq]
        exact ⟨h.1, ih h.2⟩

/-- The empty buffer is in canonical form. -/
theorem Memory.wf_nil : Memory.wf [] = true := rfl

/-- What `MemWrite` can do (R66). -/
theorem memWrite_eq (s : State) (b : BufId) (i : Nat) (v : Word) :
    (s.owner.get b = .E ∧ s.memWrite b i v = .error ⟨.ownershipViolation, .bufwr⟩) ∨
    (s.owner.get b = .P ∧ s.memWrite b i v = .ok { s with buf := s.buf.set b ((s.buf.get b).write i v) }) := by
  unfold State.memWrite
  cases h : s.owner.get b with
  | E => exact .inl ⟨rfl, if_pos rfl⟩
  | P => exact .inr ⟨rfl, if_neg (by decide)⟩

/-- Reading any word after a `MemWrite` (R65, R68). -/
theorem memRead_memWrite {s t : State} {b : BufId} {i : Nat} {v : Word} (h : s.memWrite b i v = .ok t)
    (c : BufId) (j : Nat) : t.memRead c j = if c = b ∧ j = i then v else s.memRead c j := by
  rcases memWrite_eq s b i v with ⟨-, e⟩ | ⟨-, e⟩
  · rw [e] at h; cases h
  · rw [e] at h; cases h
    simp only [State.memRead, Three.get_set]
    by_cases hc : c = b
    · subst hc
      by_cases hj : j = i
      · simp [Memory.read_write, hj]
      · simp [Memory.read_write, hj]
    · simp [hc]

/-! The sample pipeline -/

/-- What `SAMPLE` can do (R182): it advances the three pieces of pipeline state, or overflows in `BROWN` or `BQCOMP`. -/
theorem nextSample_eq (s : State) :
    (∃ noise o filt y,
      brownStep s.cfg s.noiseState (whiteSample (rngNext s.rngState).2) = some (noise, o) ∧
      biquadStep s.cfg s.filt o = some (filt, y) ∧
      s.nextSample = .ok (y, { s with rngState := (rngNext s.rngState).1, noiseState := noise, filt := filt })) ∨
    (brownStep s.cfg s.noiseState (whiteSample (rngNext s.rngState).2) = none ∧
      s.nextSample = .error ⟨.arithOverflow, .brown⟩) ∨
    (∃ noise o,
      brownStep s.cfg s.noiseState (whiteSample (rngNext s.rngState).2) = some (noise, o) ∧
      biquadStep s.cfg s.filt o = none ∧ s.nextSample = .error ⟨.arithOverflow, .bqcomp⟩) := by
  rcases hb : brownStep s.cfg s.noiseState (whiteSample (rngNext s.rngState).2) with _ | ⟨noise, o⟩
  · refine .inr (.inl ⟨rfl, ?_⟩)
    simp [State.nextSample, hb, bind, Except.bind]
  · rcases hq : biquadStep s.cfg s.filt o with _ | ⟨filt, y⟩
    · refine .inr (.inr ⟨noise, o, rfl, hq, ?_⟩)
      simp [State.nextSample, hb, hq, bind, Except.bind]
    · refine .inl ⟨noise, o, filt, y, rfl, hq, ?_⟩
      simp [State.nextSample, hb, hq, bind, Except.bind]

/-- A `SAMPLE` writes nothing but the three pieces of pipeline state. -/
theorem nextSample_frame {s t : State} {y : FX} (h : s.nextSample = .ok (y, t)) :
    t = { s with rngState := t.rngState, noiseState := t.noiseState, filt := t.filt } := by
  rcases nextSample_eq s with ⟨_, _, _, _, -, -, e⟩ | ⟨-, e⟩ | ⟨_, _, -, -, e⟩ <;> rw [e] at h <;> cases h
  rfl

/-- What a fill step can do (R184, R231): a sample is packed and written to a producer-owned buffer, or the step faults. -/
theorem fillWord_eq (s : State) (b : BufId) (i : Nat) :
    (∃ y t, s.nextSample = .ok (y, t) ∧ s.owner.get b = .P ∧
      s.fillWord b i = .ok { t with
        status := t.status.withClip (q15 y).2
        buf := s.buf.set b ((s.buf.get b).write i (packWord s.cfg.monoMode (q15 y).1)) }) ∨
    (∃ y t, s.nextSample = .ok (y, t) ∧ s.owner.get b = .E ∧
      s.fillWord b i = .error ⟨.ownershipViolation, .bufwr⟩) ∨
    (∃ e, s.nextSample = .error e ∧ s.fillWord b i = .error e) := by
  rcases hs : s.nextSample with e | ⟨y, t⟩
  · refine .inr (.inr ⟨e, rfl, ?_⟩)
    simp [State.fillWord, hs]; rfl
  · have hf := nextSample_frame hs
    have ho : t.owner = s.owner := by rw [hf]
    have hb : t.buf = s.buf := by rw [hf]
    have hw : s.fillWord b i = (t.noteClip y).memWrite b i (packWord s.cfg.monoMode (q15 y).1) := by
      simp [State.fillWord, hs]; rfl
    rcases memWrite_eq (t.noteClip y) b i (packWord s.cfg.monoMode (q15 y).1) with ⟨o, e⟩ | ⟨o, e⟩
    · exact .inr (.inl ⟨y, t, rfl, by rw [← ho]; exact o, by rw [hw, e]⟩)
    · refine .inl ⟨y, t, rfl, by rw [← ho]; exact o, ?_⟩
      rw [hw, e]
      simp [State.noteClip, hb]

/-! The engine -/

/-- What `KICK` can do (R201). -/
theorem kickSlots_eq (head : Fin 2) (sl : Two Slot) :
    (((sl.get 0).st = .running ∨ (sl.get 1).st = .running) ∧ kickSlots head sl = sl) ∨
    ((sl.get 0).st ≠ .running ∧ (sl.get 1).st ≠ .running ∧ (sl.get head).armed = true ∧
      kickSlots head sl = sl.set head { sl.get head with st := .running, idx := 0 }) ∨
    ((sl.get 0).st ≠ .running ∧ (sl.get 1).st ≠ .running ∧ (sl.get head).armed = false ∧
      (sl.get (1 - head)).armed = true ∧
      kickSlots head sl = sl.set (1 - head) { sl.get (1 - head) with st := .running, idx := 0 }) ∨
    ((sl.get 0).st ≠ .running ∧ (sl.get 1).st ≠ .running ∧ (sl.get head).armed = false ∧
      (sl.get (1 - head)).armed = false ∧ kickSlots head sl = sl) := by
  unfold kickSlots
  by_cases h0 : (sl.get 0).st = .running
  · simp [h0]
  · by_cases h1 : (sl.get 1).st = .running
    · simp [h1]
    · by_cases ha : (sl.get head).armed = true
      · simp [h0, h1, ha]
      · by_cases hb : (sl.get (1 - head)).armed = true
        · simp [h0, h1, ha, hb]
        · simp [h0, h1, ha, hb]

/-- What `DSTART` can do (R202). -/
theorem startTransfer_eq (s : State) (b : BufId) :
    (s.cnt ≠ 0 ∧ s.startTransfer b = .error ⟨.protocolViolation, .dstart⟩) ∨
    (s.cnt = 0 ∧ s.owner.get b = .E ∧ s.startTransfer b = .error ⟨.ownershipViolation, .dstart⟩) ∨
    (s.cnt = 0 ∧ s.owner.get b = .P ∧
      s.startTransfer b = .ok { s with
        owner := s.owner.set b .E, slot := s.slot.set s.head ⟨.running, some b, 0⟩, cnt := 1 }) := by
  unfold State.startTransfer
  by_cases hc : s.cnt = 0
  · cases ho : s.owner.get b with
    | E => exact .inr (.inl ⟨hc, rfl, by simp [hc]⟩)
    | P => exact .inr (.inr ⟨hc, rfl, by simp [hc, State.setOwner, State.setSlot]⟩)
  · exact .inl ⟨hc, if_pos hc⟩

/-- What `DNEXT` can do (R204). -/
theorem nextTransfer_eq (s : State) (b : BufId) :
    (s.cnt = 0 ∧ s.nextTransfer b = .error ⟨.protocolViolation, .dnext⟩) ∨
    (s.cnt ≠ 0 ∧ s.owner.get b = .E ∧ s.nextTransfer b = .error ⟨.ownershipViolation, .dnext⟩) ∨
    (s.cnt = 1 ∧ s.owner.get b = .P ∧ s.nextTransfer b = .ok (none, { s with
        owner := s.owner.set b .E
        slot := kickSlots s.head (s.slot.set (1 - s.head) ⟨.idle, some b, 0⟩)
        cnt := 2 })) ∨
    (s.cnt = 2 ∧ s.owner.get b = .P ∧ (s.slot.get s.head).st ≠ .done ∧
      s.nextTransfer b = .error ⟨.protocolViolation, .dnext⟩) ∨
    (s.cnt = 2 ∧ s.owner.get b = .P ∧ (s.slot.get s.head).st = .done ∧
      s.nextTransfer b = .ok ((s.slot.get s.head).buf, { s with
        owner := (releaseOwner s.owner (s.slot.get s.head).buf).set b .E
        slot := kickSlots (1 - s.head) (s.slot.set s.head ⟨.idle, some b, 0⟩)
        head := 1 - s.head })) := by
  unfold State.nextTransfer
  by_cases h0 : s.cnt = 0
  · exact .inl ⟨h0, if_pos h0⟩
  · cases ho : s.owner.get b with
    | E => exact .inr (.inl ⟨h0, rfl, by simp [h0]⟩)
    | P =>
      by_cases h1 : s.cnt = 1
      · refine .inr (.inr (.inl ⟨h1, rfl, ?_⟩))
        simp [h1, State.bindNext, State.kick, State.setOwner, State.setSlot]
      · have h2 : s.cnt = 2 := by
          have : ∀ c : Fin 3, c ≠ 0 → c ≠ 1 → c = 2 := by decide
          exact this _ h0 h1
        by_cases hd : (s.slot.get s.head).st = .done
        · refine .inr (.inr (.inr (.inr ⟨h2, rfl, hd, ?_⟩)))
          simp [h2, hd, State.swapNext, State.kick, State.setOwner, State.setSlot, State.reclaimOwner]
        · exact .inr (.inr (.inr (.inl ⟨h2, rfl, hd, by simp [h2, hd]⟩)))

/-- What `DWAIT` can do when it does not hold (R205). -/
theorem reclaim_eq (s : State) :
    (s.cnt = 0 ∧ s.reclaim = .error ⟨.protocolViolation, .dwait⟩) ∨
    (s.cnt ≠ 0 ∧ s.reclaim = .ok ((s.slot.get s.head).buf, { s with
        owner := releaseOwner s.owner (s.slot.get s.head).buf
        slot := s.slot.set s.head Slot.empty
        head := 1 - s.head
        cnt := s.cnt - 1 })) := by
  unfold State.reclaim
  by_cases h0 : s.cnt = 0
  · exact .inl ⟨h0, if_pos h0⟩
  · refine .inr ⟨h0, ?_⟩
    simp [h0, State.setSlot, State.reclaimOwner]

/-- The running slot runs (R207). -/
theorem runningSlot_running {s : State} {k : Fin 2} (h : s.runningSlot = some k) : (s.slot.get k).st = .running := by
  unfold State.runningSlot at h
  split at h
  · cases h; assumption
  · split at h
    · cases h; assumption
    · cases h

/-- No slot runs (R207). -/
theorem runningSlot_none {s : State} (h : s.runningSlot = none) (k : Fin 2) : (s.slot.get k).st ≠ .running := by
  unfold State.runningSlot at h
  split at h
  · cases h
  · split at h
    · cases h
    · rcases eq_or_eq_other s.head k with rfl | rfl <;> assumption

/-- What `DXFER` can do (R207, R208). -/
theorem execDxfer_eq (s : State) :
    (((∀ k, (s.slot.get k).st ≠ .running) ∨ ¬ s.fifo.length < s.cfg.fifoDepth) ∧ execDxfer s = s.hold) ∨
    (∃ k b, s.runningSlot = some k ∧ s.fifo.length < s.cfg.fifoDepth ∧ (s.slot.get k).buf = some b ∧
      (s.slot.get k).idx < s.cfg.bufWords ∧ execDxfer s = .next ((s.moveWord k b).ret .unit)) ∨
    (∃ k, s.runningSlot = some k ∧ s.fifo.length < s.cfg.fifoDepth ∧ (s.slot.get k).buf = none ∧
      execDxfer s = .fault .noSuchBuffer) ∨
    (∃ k, s.runningSlot = some k ∧ s.fifo.length < s.cfg.fifoDepth ∧ ¬ (s.slot.get k).idx < s.cfg.bufWords ∧
      execDxfer s = .fault .noSuchIndex) := by
  unfold execDxfer
  cases hr : s.runningSlot with
  | none => exact .inl ⟨.inl (runningSlot_none hr), rfl⟩
  | some k =>
    by_cases hf : s.fifo.length < s.cfg.fifoDepth
    · cases hb : (s.slot.get k).buf with
      | none => exact .inr (.inr (.inl ⟨k, rfl, hf, hb, by simp [hf, hb]⟩))
      | some b =>
        by_cases hi : (s.slot.get k).idx < s.cfg.bufWords
        · exact .inr (.inl ⟨k, b, rfl, hf, hb, hi, by simp [hf, hb, hi]⟩)
        · exact .inr (.inr (.inr ⟨k, rfl, hf, hi, by simp [hf, hb, hi]⟩))
    · exact .inl ⟨.inr hf, by simp [hf]⟩

end Sys2Proof.Machine
end

