-- ==== Sys2Proof/Laws/PerInstr.lean ====
section
/-! SUPPORT. Statements about every operation as syntax, one lemma per constructor: the operation's identifier stands first in
its encoding and names it. -/
namespace Sys2Proof

/-- Every identifier of R98 names its operation: no two operations share one. -/
@[simp] theorem OpId.ofCode_code (o : OpId) : OpId.ofCode o.code = some o := by cases o <;> rfl

end Sys2Proof

namespace Sys2Proof.Laws.IdentifierFirst

open Sys2Proof

/-- The first byte of the encoding of `i` is its identifier, and the identifier names the operation (R98). -/
def Statement (i : Instr) : Prop :=
  (encode i).head? = some i.opId.code ∧ OpId.ofCode i.opId.code = some i.opId

theorem fxadd (a b : FX) : Statement (.fxadd a b) := ⟨rfl, OpId.ofCode_code _⟩
theorem fxsub (a b : FX) : Statement (.fxsub a b) := ⟨rfl, OpId.ofCode_code _⟩
theorem fxneg (a : FX) : Statement (.fxneg a) := ⟨rfl, OpId.ofCode_code _⟩
theorem fxmul (a b : FX) : Statement (.fxmul a b) := ⟨rfl, OpId.ofCode_code _⟩
theorem fxmac (acc a b : FX) : Statement (.fxmac acc a b) := ⟨rfl, OpId.ofCode_code _⟩
theorem fxmsub (acc a b : FX) : Statement (.fxmsub acc a b) := ⟨rfl, OpId.ofCode_code _⟩
theorem rngseed (seed : BitVec 64) : Statement (.rngseed seed) := ⟨rfl, OpId.ofCode_code _⟩
theorem rngnext : Statement (.rngnext) := ⟨rfl, OpId.ofCode_code _⟩
theorem white (r : Word) : Statement (.white r) := ⟨rfl, OpId.ofCode_code _⟩
theorem brown (w : FX) : Statement (.brown w) := ⟨rfl, OpId.ofCode_code _⟩
theorem bqclr : Statement (.bqclr) := ⟨rfl, OpId.ofCode_code _⟩
theorem bqpushx (x : FX) : Statement (.bqpushx x) := ⟨rfl, OpId.ofCode_code _⟩
theorem bqpushy (y : FX) : Statement (.bqpushy y) := ⟨rfl, OpId.ofCode_code _⟩
theorem bqcomp (x : FX) : Statement (.bqcomp x) := ⟨rfl, OpId.ofCode_code _⟩
theorem q15 (y : FX) : Statement (.q15 y) := ⟨rfl, OpId.ofCode_code _⟩
theorem pack (y : FX) : Statement (.pack y) := ⟨rfl, OpId.ofCode_code _⟩
theorem sample : Statement (.sample) := ⟨rfl, OpId.ofCode_code _⟩
theorem bufwr (b : BufId) (i : Nat) (v : Word) : Statement (.bufwr b i v) := ⟨rfl, OpId.ofCode_code _⟩
theorem fill (b : BufId) : Statement (.fill b) := ⟨rfl, OpId.ofCode_code _⟩
theorem dstart (b : BufId) : Statement (.dstart b) := ⟨rfl, OpId.ofCode_code _⟩
theorem disdone : Statement (.disdone) := ⟨rfl, OpId.ofCode_code _⟩
theorem dnext (b : BufId) : Statement (.dnext b) := ⟨rfl, OpId.ofCode_code _⟩
theorem dwait : Statement (.dwait) := ⟨rfl, OpId.ofCode_code _⟩
theorem dxfer : Statement (.dxfer) := ⟨rfl, OpId.ofCode_code _⟩
theorem kick : Statement (.kick) := ⟨rfl, OpId.ofCode_code _⟩
theorem schstep : Statement (.schstep) := ⟨rfl, OpId.ofCode_code _⟩
theorem sqtick : Statement (.sqtick) := ⟨rfl, OpId.ofCode_code _⟩
theorem divcalc (baseHz cyclesPerBit bclkHz : ℕ+) : Statement (.divcalc baseHz cyclesPerBit bclkHz) := ⟨rfl, OpId.ofCode_code _⟩
theorem reset : Statement (.reset) := ⟨rfl, OpId.ofCode_code _⟩

end Sys2Proof.Laws.IdentifierFirst
end

