-- ==== Sys2Proof/Tests/Slice0.lean ====
section
/-! SUPPORT. Checks of the model: ill-formed operations are refused, words written out from the spec's table decode, the vectors
of `95_test_vectors.md` come out, and for every obligation that has hypotheses a witness that meets them. -/
namespace Sys2Proof.Tests

open Sys2Proof Sys2Proof.Machine

/-! ## Well-formedness -/

theorem test_wf_last_index : (Instr.bufwr 2 219 0).wellFormed Config.default = true := by decide
theorem test_wf_index_out_of_range : (Instr.bufwr 2 220 0).wellFormed Config.default = false := by decide
theorem test_wf_index_too_wide : (Instr.bufwr 0 4294967296 0).encodable = false := by decide
theorem test_wf_divcalc_base_too_wide : (Instr.divcalc 18446744073709551617 1 1).encodable = false := by decide
theorem test_wf_divcalc_cycles_too_wide : (Instr.divcalc 1 18446744073709551617 1).encodable = false := by decide
theorem test_wf_divcalc_bclk_too_wide : (Instr.divcalc 1 1 18446744073709551617).encodable = false := by decide
theorem test_wf_divcalc_largest : (Instr.divcalc 18446744073709551616 1 1).wellFormed Config.default = true := by decide

/-! ## Decoding: the identifier bytes are those of R98, bit for bit; the operand bytes follow log 1 -/

theorem test_decode_fxadd :
    decode [0b00000001, 0x78, 0x56, 0x34, 0x12, 0xFF, 0xFF, 0xFF, 0x7F] = .ok (.fxadd 0x12345678 0x7FFFFFFF, []) := by decide
theorem test_decode_fxsub :
    decode [0b00000010, 0, 0, 0, 0, 0xE2, 0xFD, 0xFF, 0xFF] = .ok (.fxsub 0 0xFFFFFDE2, []) := by decide
theorem test_decode_fxneg : decode [0b00000011, 0x52, 0x3E, 0, 0] = .ok (.fxneg 0x00003E52, []) := by decide
theorem test_decode_fxmul :
    decode [0b00000100, 0x3A, 0x02, 0xFE, 0xFF, 0x10, 0x01, 0, 0] = .ok (.fxmul 0xFFFE023A 0x00000110, []) := by decide
theorem test_decode_fxmac :
    decode [0b00000101, 1, 0, 0, 0, 2, 0, 0, 0, 3, 0, 0, 0x80] = .ok (.fxmac 1 2 0x80000003, []) := by decide
theorem test_decode_fxmsub :
    decode [0b00000110, 1, 0, 0, 0, 2, 0, 0, 0, 3, 0, 0, 0x80] = .ok (.fxmsub 1 2 0x80000003, []) := by decide
theorem test_decode_rngseed :
    decode [0b00010000, 0xEF, 0xCD, 0xAB, 0x89, 0x67, 0x45, 0x23, 0x01] = .ok (.rngseed 0x0123456789ABCDEF, []) := by decide
theorem test_decode_rngnext : decode [0b00010001] = .ok (.rngnext, []) := by decide
theorem test_decode_white : decode [0b00010010, 0xFF, 0xFF, 0, 0x80] = .ok (.white 0x8000FFFF, []) := by decide
theorem test_decode_brown : decode [0b00010011, 0x52, 0x3E, 0, 0] = .ok (.brown 15954, []) := by decide
theorem test_decode_bqclr : decode [0b00100000] = .ok (.bqclr, []) := by decide
theorem test_decode_bqpushx : decode [0b00100001, 0, 0, 1, 0] = .ok (.bqpushx 0x00010000, []) := by decide
theorem test_decode_bqpushy : decode [0b00100010, 0x10, 1, 0, 0] = .ok (.bqpushy 272, []) := by decide
theorem test_decode_bqcomp : decode [0b00100011, 0, 0, 0xFF, 0xFF] = .ok (.bqcomp 0xFFFF0000, []) := by decide
theorem test_decode_q15 : decode [0b00110000, 0xEA, 0xFF, 0xFF, 0xFF] = .ok (.q15 0xFFFFFFEA, []) := by decide
theorem test_decode_pack : decode [0b00110001, 0xEA, 0xFF, 0xFF, 0xFF] = .ok (.pack 0xFFFFFFEA, []) := by decide
theorem test_decode_sample : decode [0b00110010] = .ok (.sample, []) := by decide
theorem test_decode_bufwr :
    decode [0b00110011, 2, 0xDB, 0, 0, 0, 0xEF, 0xBE, 0xAD, 0xDE] = .ok (.bufwr 2 219 0xDEADBEEF, []) := by decide
theorem test_decode_fill : decode [0b00110100, 1] = .ok (.fill 1, []) := by decide
theorem test_decode_dstart : decode [0b01000000, 0] = .ok (.dstart 0, []) := by decide
theorem test_decode_disdone : decode [0b01000001] = .ok (.disdone, []) := by decide
theorem test_decode_dnext : decode [0b01000010, 2] = .ok (.dnext 2, []) := by decide
theorem test_decode_dwait : decode [0b01000011] = .ok (.dwait, []) := by decide
theorem test_decode_dxfer : decode [0b01000100] = .ok (.dxfer, []) := by decide
theorem test_decode_kick : decode [0b01000101] = .ok (.kick, []) := by decide
theorem test_decode_schstep : decode [0b01010000] = .ok (.schstep, []) := by decide
theorem test_decode_sqtick : decode [0b01100000, 0b01100000] = .ok (.sqtick, [0b01100000]) := by decide
theorem test_decode_divcalc :
    decode [0b01100001, 0x58, 0x02, 0, 0, 0, 0, 0, 0, 1, 0, 0, 0, 0, 0, 0, 0, 0xFF, 0, 0, 0, 0, 0, 0, 0] =
      .ok (.divcalc 601 2 256, []) := by decide
theorem test_decode_reset : decode [0b01110000] = .ok (.reset, []) := by decide
theorem test_decode_unknown : decode [0b00000111] = .error .unknownIdentifier := by decide
theorem test_decode_buffer_three : decode [0b01000000, 3] = .error .noSuchBuffer := by decide
theorem test_decode_truncated : decode [0b00000011, 0x52, 0x3E, 0] = .error .truncated := by decide

/-! ## One operation on a small state -/

/-- The operation answers a next state of which `p` holds. -/
def nextHas (o : Out) (p : State → Bool) : Bool :=
  match o with
  | .next t => p t
  | _ => false

/-- The operation on `s` answers a next state with result `r` and `STATUS` word `w`. -/
def gives (i : Instr) (s : State) (r : OpResult) (w : Word) : Bool :=
  nextHas (exec i s) (fun t => decide (t.result = r ∧ t.status.toWord = w))

/-- The reset state. -/
def base : State := State.reset

/-- The reset state with buffers of `n` words. -/
def sized (n : ℕ+) : State := { base with cfg := { base.cfg with bufWords := n } }

/-- The start of table EN-1: buffers of two words, filled. -/
def two : State :=
  { sized 2 with
    buf := ⟨[(0, 0xB0000000), (1, 0xB0000001)], [(0, 0xB0000100), (1, 0xB0000101)], [(0, 0xB0000200), (1, 0xB0000201)]⟩ }

/-- EN-1 after row 5: buffer 0 running with one word moved, buffer 1 armed. -/
def armed : State :=
  { two with slot := ⟨⟨.running, some 0, 1⟩, ⟨.idle, some 1, 0⟩⟩, cnt := 2, owner := ⟨.E, .E, .P⟩, fifo := [0xB0000000] }

/-- EN-1 after row 6: buffer 0 done, buffer 1 running. -/
def swapping : State :=
  { two with slot := ⟨⟨.done, some 0, 2⟩, ⟨.running, some 1, 0⟩⟩, cnt := 2, owner := ⟨.E, .E, .P⟩
             fifo := [0xB0000000, 0xB0000001] }

/-- EN-7 after row 6: the engine has run out. -/
def ranOut : State := { swapping with slot := ⟨⟨.done, some 0, 2⟩, ⟨.done, some 1, 2⟩⟩, fifo := [] }

/-- EN-1 after row 2: one transfer, running. -/
def started : State := { two with slot := ⟨⟨.running, some 0, 0⟩, Slot.empty⟩, cnt := 1, owner := ⟨.E, .P, .P⟩ }

/-- A harness-set filter whose next output overflows (vector BQ-5a). -/
def loud : FilterState := ⟨⟨0, 0, 0⟩, 0, ⟨0x41000000, 0⟩, 1⟩

/-- Vectors ADD-5, ADD-4. -/
theorem test_fxadd : gives (.fxadd 0x80000001 0xFFFFFFFF) base (.fx 0x80000000) 0 = true := by decide
theorem test_fxadd_overflow : gives (.fxadd 0x7FFFFFFF 1) base (.fault .arithOverflow) 0x011 = true := by decide
/-- Vectors SUB-1, SUB-5. -/
theorem test_fxsub : gives (.fxsub 0 0xFFFFFDE2) base (.fx 0x0000021E) 0 = true := by decide
theorem test_fxsub_overflow : gives (.fxsub 0 0x80000000) base (.fault .arithOverflow) 0x021 = true := by decide
/-- Vectors NEG-1, NEG-3. -/
theorem test_fxneg : gives (.fxneg 0x00003E52) base (.fx 0xFFFFC1AE) 0 = true := by decide
theorem test_fxneg_overflow : gives (.fxneg 0x80000000) base (.fault .arithOverflow) 0x031 = true := by decide
/-- Vectors MUL-2 (floor of a negative product), MUL-16. -/
theorem test_fxmul_floors : gives (.fxmul 0xFFFE023A 0x00000110) base (.fx 0xFFFFFDE2) 0 = true := by decide
theorem test_fxmul_overflow : gives (.fxmul 0x00B504F4 0x00B504F4) base (.fault .arithOverflow) 0x041 = true := by decide
/-- Vectors MAC-3, MAC-5. -/
theorem test_fxmac : gives (.fxmac 0x64 0xFFFFFFFD 0x8000) base (.fx 0x62) 0 = true := by decide
theorem test_fxmac_overflow : gives (.fxmac 0x7FFFFFFF 1 0x10000) base (.fault .arithOverflow) 0x051 = true := by decide
/-- Vectors MSB-4, MSB-6. -/
theorem test_fxmsub : gives (.fxmsub 0x64 0xFFFFFFFD 0x8000) base (.fx 0x66) 0 = true := by decide
theorem test_fxmsub_overflow : gives (.fxmsub 0x80000000 1 0x10000) base (.fault .arithOverflow) 0x061 = true := by decide
/-- Vector RN-3: seed 0 of XS64. -/
theorem test_rngseed_reserved : gives (.rngseed 0) base (.fault .configReserved) 0x104 = true := by decide
/-- Vector RN-2: the first draw from seed 0x0123456789ABCDEF. -/
theorem test_rngnext :
    nextHas (exec .rngnext { base with rngState := .xs64 0x0123456789ABCDEF })
      (fun t => decide (t.rngState = .xs64 0x3F2800D6569E01B4 ∧ t.result = .word 0x569E01B4)) = true := by decide
/-- Vectors WH-2, WH-10. -/
theorem test_white_zero : gives (.white 0x80000000) base (.fx 0) 0 = true := by decide
theorem test_white_negative : gives (.white 0xF2BDE6AE) base (.fx 0xFFFF1952) 0 = true := by decide
/-- Vector BR-11: the candidate is exactly -16384 and reflects. -/
theorem test_brown_reflects :
    nextHas (exec (.brown (BitVec.ofInt 32 (-5002))) { base with noiseState := BitVec.ofInt 32 (-16383) })
      (fun t => decide (t.noiseState.toInt = -16284 ∧ t.result = .fx (BitVec.ofInt 32 (-4071)))) = true := by decide
/-- Vector BR-17: an overflow is reported as BROWN and leaves the state. -/
theorem test_brown_overflow :
    nextHas (exec (.brown 0) { base with cfg := { base.cfg with cLeak := 0x00020000 }, noiseState := 0x40000000 })
      (fun t => decide (t.noiseState = 0x40000000 ∧ t.status.toWord = 0x131)) = true := by decide
/-- Vector BQ-7: the fourth push overwrites the oldest input. -/
theorem test_bqpushx :
    nextHas (exec (.bqpushx 7) { base with filt := ⟨⟨65536, 5, 6⟩, 0, ⟨0, 0⟩, 0⟩ })
      (fun t => decide (t.filt = ⟨⟨7, 5, 6⟩, 1, ⟨0, 0⟩, 0⟩)) = true := by decide
theorem test_bqpushy :
    nextHas (exec (.bqpushy 542) { base with filt := ⟨⟨0, 0, 0⟩, 0, ⟨272, 0⟩, 1⟩ })
      (fun t => decide (t.filt = ⟨⟨0, 0, 0⟩, 0, ⟨272, 542⟩, 0⟩)) = true := by decide
theorem test_bqclr :
    nextHas (exec .bqclr { base with filt := ⟨⟨7, 5, 6⟩, 1, ⟨272, 542⟩, 1⟩ })
      (fun t => decide (t.filt = ⟨⟨0, 0, 0⟩, 0, ⟨0, 0⟩, 0⟩)) = true := by decide
/-- Vector BQ-6, call 2: both cursors in the middle of their rounds. -/
theorem test_bqcomp :
    nextHas (exec (.bqcomp 3000) { base with filt := ⟨⟨1000, BitVec.ofInt 32 (-2000), 0⟩, 2, ⟨4, 0xFFFFFFFF⟩, 0⟩ })
      (fun t => decide (t.result = .fx 3 ∧
        t.filt = ⟨⟨1000, BitVec.ofInt 32 (-2000), 3000⟩, 0, ⟨3, 0xFFFFFFFF⟩, 1⟩)) = true := by decide
/-- Vector BQ-5a: the overflow is BQCOMP's and FilterState keeps its value, the input push included. -/
theorem test_bqcomp_overflow :
    nextHas (exec (.bqcomp 0) { base with filt := loud })
      (fun t => decide (t.filt = loud ∧ t.status.toWord = 0x231)) = true := by decide
/-- Vectors PK-9, PK-13. -/
theorem test_q15 : gives (.q15 0x0000FFFF) base (.pcm 0x7FFF) 0 = true := by decide
theorem test_q15_clips : gives (.q15 0xFFFEFFFF) base (.pcm 0x8000) 0x2000 = true := by decide
/-- Vectors PK-6, PK-10. -/
theorem test_pack : gives (.pack 0xFFFFFFEA) base (.word 0xFFF5FFF5) 0 = true := by decide
theorem test_pack_clips : gives (.pack 0x00010000) base (.word 0x7FFF7FFF) 0x2000 = true := by decide
/-- Vector PL-1, samples 0 and 1. -/
theorem test_sample_first :
    nextHas (exec .sample base) (fun t => decide (t.noiseState = 159 ∧ t.result = .fx 0)) = true := by decide
theorem test_sample_second :
    nextHas (runOps [.sample, .sample] base)
      (fun t => decide (t.noiseState.toInt = -433 ∧ t.result = .fx 0xFFFFFFFF ∧ t.rngState = .xs64 0xD77DB6F6F2BDE6AE)) =
      true := by decide
/-- Vector EN-6. -/
theorem test_bufwr :
    nextHas (exec (.bufwr 1 1 0x00C0FFEE) started) (fun t => decide (t.memRead 1 1 = 0x00C0FFEE ∧ t.memRead 1 0 = 0xB0000100)) =
      true := by decide
theorem test_bufwr_engine_owned : gives (.bufwr 0 1 0xDEADBEEF) started (.fault .ownershipViolation) 0x332 = true := by decide
/-- Vector PL-1: words 0 to 2 of the first fill, with three words a buffer. -/
theorem test_fill :
    nextHas (exec (.fill 0) (sized 3))
      (fun t => decide (t.buf = ⟨[(0, 0), (1, 0xFFFFFFFF), (2, 0xFFFEFFFE)], [], []⟩ ∧ t.genCount = 1)) = true := by decide
/-- R184: the second word overflows; the first stays written with its clip (BQ-5c: a large sample), no buffer is counted. -/
theorem test_fill_fault :
    nextHas (exec (.fill 0) { sized 2 with filt := ⟨⟨0, 0, 0⟩, 0, ⟨0x30000000, 0⟩, 1⟩ })
      (fun t => decide (t.genCount = 0 ∧ t.status.toWord = 0x2231 ∧ (t.buf.get 0).length = 1 ∧ t.noiseState = 159)) = true := by
  decide
/-- Vector EN-1, row 2; vector EN-3. -/
theorem test_dstart :
    nextHas (exec (.dstart 0) two)
      (fun t => decide (t.slot = ⟨⟨.running, some 0, 0⟩, Slot.empty⟩ ∧ t.cnt = 1 ∧ t.owner = ⟨.E, .P, .P⟩)) = true := by decide
theorem test_dstart_twice : gives (.dstart 1) started (.fault .protocolViolation) 0x403 = true := by decide
/-- Vector EN-1, rows 3 and 7. -/
theorem test_disdone_running : gives .disdone started (.flag false) 0 = true := by decide
theorem test_disdone_done : gives .disdone swapping (.flag true) 0 = true := by decide
/-- Vector EN-7, row 14: the reclaimed slot starts at once; vector EN-5, row 4. -/
theorem test_dnext_restarts :
    nextHas (exec (.dnext 2) ranOut)
      (fun t => decide (t.slot = ⟨⟨.running, some 2, 0⟩, ⟨.done, some 1, 2⟩⟩ ∧ t.head = 1 ∧ t.owner = ⟨.P, .E, .E⟩ ∧
        t.result = .buffer (some 0))) = true := by decide
theorem test_dnext_no_room : gives (.dnext 2) armed (.fault .protocolViolation) 0x423 = true := by decide
/-- Vector EN-1, row 8; vector EN-5, row 3. -/
theorem test_dwait :
    nextHas (exec .dwait swapping)
      (fun t => decide (t.slot = ⟨Slot.empty, ⟨.running, some 1, 0⟩⟩ ∧ t.head = 1 ∧ t.cnt = 1 ∧ t.owner = ⟨.P, .E, .P⟩ ∧
        t.result = .buffer (some 0))) = true := by decide
theorem test_dwait_held : gives .dwait armed .held 0 = true := by decide
/-- Vector EN-1, row 6: the last word; row 12: the FIFO is full. -/
theorem test_dxfer_last_word :
    nextHas (exec .dxfer armed)
      (fun t => decide (t.slot = ⟨⟨.done, some 0, 2⟩, ⟨.running, some 1, 0⟩⟩ ∧ t.fifo = [0xB0000000, 0xB0000001])) = true := by
  decide
theorem test_dxfer_full : gives .dxfer { armed with fifo := [1, 2, 3, 4] } .held 0 = true := by decide
/-- R201: the oldest armed slot starts. -/
theorem test_kick :
    nextHas (exec .kick { two with slot := ⟨⟨.idle, some 0, 7⟩, ⟨.idle, some 1, 0⟩⟩, head := 1 })
      (fun t => decide (t.slot = ⟨⟨.idle, some 0, 7⟩, ⟨.running, some 1, 0⟩⟩)) = true := by decide
/-- R231's worked example, second step; R236: the step is held while buffer 0 is moving. -/
theorem test_schstep_fill :
    nextHas (runOps [.schstep, .schstep] base)
      (fun t => decide (t.buf.get 0 = [(0, 0), (1, 0xFFFFFFFF)] ∧ t.sched = ⟨.primeFill0, 2, none⟩)) = true := by decide
theorem test_schstep_waits : gives .schstep { armed with sched := ⟨.primeWait, 0, none⟩ } .held 0 = true := by decide
/-- Vector SQ-1, tick 0 and the stall of tick 64. -/
theorem test_sqtick :
    nextHas (exec .sqtick { base with fifo := [0xFFF5FFF5] })
      (fun t => decide (t.seq = ⟨0xFFEBFFEA, 0, true, true⟩ ∧ t.wires = ⟨true, false, false⟩ ∧ t.fifo = [])) = true := by decide
theorem test_sqtick_underrun :
    nextHas (exec .sqtick { base with seq := ⟨0, 0, false, true⟩, wires := ⟨true, true, true⟩ })
      (fun t => decide (t.wires = ⟨true, true, true⟩ ∧ t.status.toWord = 0x1000)) = true := by decide
/-- Vectors DV-5 (a tie), DV-11. -/
theorem test_divcalc : gives (.divcalc 601 2 256) base (.word 0x00012D00) 0 = true := by decide
theorem test_divcalc_reserved : gives (.divcalc 4000000000 2 30000) base (.fault .configReserved) 0x614 = true := by decide
/-- R257's worked examples: the divisor of the configured machine at 44100 and 48000 Hz from 125 MHz. -/
theorem test_configured_divisor :
    clkdivFor Config.default 125000000 44100 = some 0x002C4A00 ∧ clkdivFor Config.default 125000000 48000 = some 0x0028B100 := by
  decide
/-- Vectors RS-5 (the seed is checked first), RS-4. -/
theorem test_reset_seed :
    nextHas (exec .reset { armed with cfg := { base.cfg with seed := 0, clkdiv := 0 } })
      (fun t => decide (t.status.toWord = 0x104 ∧ t.owner = ⟨.P, .P, .P⟩ ∧ t.fifo = [])) = true := by decide
theorem test_reset_clkdiv : gives .reset { base with cfg := { base.cfg with clkdiv := 0x002C4A01 } } .unit 0x704 = true := by decide
/-- R91, R103: the raw constants are their decimals quantised (C_B0, C_A1, C_A2, C_LEAK, C_STEP). -/
theorem test_quantise :
    quantise 414308 100000000 = 272 ∧ quantise (-199130017) 100000000 = -130502 ∧ quantise 99171384 100000000 = 64993 ∧
    quantise 997 1000 = 65339 ∧ quantise 1 100 = 655 ∧ quantise 1 4 = 16384 := by decide
/-- Table of `STATUS` values: 0x1332. -/
theorem test_status_word : Status.toWord ⟨2, 0x33, true, false⟩ = 0x1332 := by decide
/-- The fetch interface runs the row's operation: SQTICK, and DSTART with its zero operand. -/
theorem test_withFetchWord : decodeTableWord 8 0x40 = some (.dstart 0) ∧
    nextHas (step (base.withFetchWord 8 0x40)) (fun t => decide (t.slot.get 0 = ⟨.running, some 0, 0⟩)) = true := by decide

/-! ## Witnesses: states and operands that meet the hypotheses of the obligations, each clause at a boundary of its range -/

/-- The largest and the smallest FX value. -/
def fxMax : FX := 0x7FFFFFFF
def fxMin : FX := 0x80000000

theorem witness_FxaddGivesExactSum :
    InFx (fxMax.toInt + (0 : FX).toInt) ∧ InFx (fxMin.toInt + (0 : FX).toInt) ∧
    ¬ InFx (fxMax.toInt + (1 : FX).toInt) ∧ ¬ InFx (fxMin.toInt + (0xFFFFFFFF : FX).toInt) := by decide
theorem witness_FxsubGivesExactDifference :
    InFx (fxMax.toInt - (0 : FX).toInt) ∧ InFx ((0xFFFFFFFF : FX).toInt - fxMax.toInt) ∧
    ¬ InFx ((0 : FX).toInt - fxMin.toInt) ∧ ¬ InFx (fxMin.toInt - (1 : FX).toInt) := by decide
theorem witness_FxnegFaultsOnlyAtMinimum : (0x80000001 : FX) ≠ 0x80000000 ∧ fxMin = 0x80000000 := by decide
theorem witness_FxmulFloorsTheProduct :
    (IsFloor 2147483647 (fxMax.toInt * (0x10000 : FX).toInt) ∧ InFx 2147483647) ∧
    (IsFloor (-2147483648) (fxMin.toInt * (0x10000 : FX).toInt) ∧ InFx (-2147483648)) ∧
    (IsFloor 2147483648 (fxMin.toInt * (0xFFFF0000 : FX).toInt) ∧ ¬ InFx 2147483648) := by decide
theorem witness_FxmacAddsTheRoundedProduct :
    (IsFloor 0 ((1 : FX).toInt * (0xFFFF : FX).toInt) ∧ InFx 0 ∧ InFx (fxMax.toInt + 0)) ∧
    (IsFloor 1 ((1 : FX).toInt * (0x10000 : FX).toInt) ∧ ¬ (InFx 1 ∧ InFx (fxMax.toInt + 1))) := by decide
theorem witness_FxmsubSubtractsTheRoundedProduct :
    (IsFloor 0 ((1 : FX).toInt * (0xFFFF : FX).toInt) ∧ InFx 0 ∧ InFx (fxMin.toInt - 0)) ∧
    (IsFloor 1 ((1 : FX).toInt * (0x10000 : FX).toInt) ∧ ¬ (InFx 1 ∧ InFx (fxMin.toInt - 1))) := by decide
theorem witness_RngseedSeedsTheSource :
    (base.cfg.rng = .xs64 ∧ (1 : BitVec 64) ≠ 0) ∧ (base.cfg.rng = .xs64 ∧ (0 : BitVec 64) = 0) ∧
    ({ base with cfg := { base.cfg with rng := .other } } : State).cfg.rng = .other := by decide
theorem witness_RngnextAdvancesTheSource :
    ({ base with rngState := .xs64 0 } : State).rngState = .xs64 0 ∧
    ({ base with rngState := .other 7 } : State).rngState = .other 7 := by decide

/-- The walk at its upper edge; the sample 5103 brings the candidate to 16384 exactly (vector BR-9). -/
def edge : State := { base with noiseState := 16383 }

theorem witness_BrownReflectsAtTheBoundary_reflected :
    IsFloor 16333 (edge.cfg.cLeak.toInt * edge.noiseState.toInt) ∧ IsFloor 51 ((5103 : FX).toInt * edge.cfg.cStep.toInt) ∧
    (16333 + 51 : Int) ≥ edge.cfg.cBound.toInt ∧ IsFloor 4070 ((16333 - 51) * edge.cfg.cVol.toInt) ∧
    InFx 16333 ∧ InFx 51 ∧ InFx (16333 + 51) ∧ InFx (16333 - 51) ∧ InFx 4070 := by decide
/-- Vector BR-17. -/
theorem witness_BrownReflectsAtTheBoundary_overflow :
    IsFloor 2147483648 ((0x00020000 : FX).toInt * (0x40000000 : FX).toInt) ∧ IsFloor 0 ((0 : FX).toInt * base.cfg.cStep.toInt) ∧
    ¬ InFx 2147483648 := by decide
theorem witness_BrownStaysInsideTheBoundary :
    edge.cfg.DefaultConstants ∧ NoiseInv edge ∧ NoiseInv { base with noiseState := BitVec.ofInt 32 (-16383) } := by
  unfold Config.DefaultConstants; decide

/-- With the stream empty and every agent's step completing, the step completes, whichever agent is chosen. -/
theorem step_completes_of_agents {s : State} (hp : s.program = [])
    (h : ∀ a : Agent, ∃ t, exec a.op { s with choices := s.choices + 1 } = .next t) : ∃ t, step s = .next t := by
  obtain ⟨t, ht⟩ := h (s.agentOf (Config.schedule s.choices))
  refine ⟨t, ?_⟩
  rw [← ht]
  unfold step State.fetch
  rw [hp]

/-- Every agent can step from the state the pipeline starts in. -/
theorem base_agents : ∀ a : Agent, ∃ t, exec a.op { base with choices := base.choices + 1 } = .next t := by
  intro a
  cases a <;> exact ⟨_, rfl⟩

theorem witness_NoiseBoundaryKeptByEveryStep :
    base.cfg.DefaultConstants ∧ base.program = [] ∧ NoiseInv base ∧ ∃ t, step base = .next t :=
  ⟨by unfold Config.DefaultConstants; decide, rfl, by decide, step_completes_of_agents rfl base_agents⟩

/-- Vector BQ-6, call 2: fits. Vector BQ-5a: the fourth product does not. -/
theorem witness_BqcompComputesTheDifferenceEquation :
    (IsFloor 12 (base.cfg.cB0.toInt * (3000 : FX).toInt) ∧ IsFloor 0 (base.cfg.cB1.toInt * (-2000)) ∧
      IsFloor (-5) (base.cfg.cB2.toInt * 1000) ∧ IsFloor 1 (base.cfg.cA1.toInt * (-1)) ∧
      IsFloor 3 (base.cfg.cA2.toInt * 4) ∧ InFx 12 ∧ InFx 0 ∧ InFx (12 + 0) ∧ InFx (-5) ∧ InFx (12 + 0 + -5) ∧ InFx 1 ∧
      InFx (12 + 0 + -5 - 1) ∧ InFx 3 ∧ InFx (12 + 0 + -5 - 1 - 3)) ∧
    (IsFloor (-2171553280) (base.cfg.cA1.toInt * (loud.yHist.get (loud.yCur - 1)).toInt) ∧ ¬ InFx (-2171553280)) := by decide
theorem witness_BqcompDependsOnFilterAndCoefficientsOnly :
    base.filt = armed.filt ∧ base.cfg.cB0 = armed.cfg.cB0 ∧ base.cfg.cB1 = armed.cfg.cB1 ∧ base.cfg.cB2 = armed.cfg.cB2 ∧
    base.cfg.cA1 = armed.cfg.cA1 ∧ base.cfg.cA2 = armed.cfg.cA2 ∧ base ≠ armed := by decide
theorem witness_Q15SaturatesWithStickyClip :
    (32767 * 2 ≤ (0xFFFF : FX).toInt ∧ (0xFFFF : FX).toInt < (32767 + 1) * 2) ∧
    (32768 * 2 ≤ (0x10000 : FX).toInt ∧ (0x10000 : FX).toInt < (32768 + 1) * 2) ∧
    (-32768 * 2 ≤ (0xFFFF0000 : FX).toInt ∧ (0xFFFF0000 : FX).toInt < (-32768 + 1) * 2) ∧
    (-32769 * 2 ≤ (0xFFFEFFFF : FX).toInt ∧ (0xFFFEFFFF : FX).toInt < (-32769 + 1) * 2) := by decide

/-- Histories at the edge of the range the statement asks for. -/
def largeHistory : State :=
  { edge with filt := ⟨⟨268435455, BitVec.ofInt 32 (-268435455), 0⟩, 1, ⟨268435455, BitVec.ofInt 32 (-268435455)⟩, 1⟩ }

theorem witness_SampleCompletesWithSmallHistory :
    largeHistory.cfg.DefaultConstants ∧ NoiseInv largeHistory ∧
    (∀ i, -268435456 < (largeHistory.filt.xHist.get i).toInt ∧ (largeHistory.filt.xHist.get i).toInt < 268435456) ∧
    (∀ i, -268435456 < (largeHistory.filt.yHist.get i).toInt ∧ (largeHistory.filt.yHist.get i).toInt < 268435456) := by
  unfold Config.DefaultConstants; decide
theorem witness_BufwrWritesOneWord :
    ((1 : Nat) < two.cfg.bufWords ∧ two.owner.get 1 = .P) ∧ ((1 : Nat) < started.cfg.bufWords ∧ started.owner.get 0 = .E) := by decide
theorem witness_BufwrRefusesMissingAddress : (two.cfg.bufWords : Nat) ≤ 2 := by decide
theorem witness_FillIsNFillSteps : ∃ t, fillByHand 0 (sized 2).cfg.bufWords 0 (sized 2) = some t :=
  Option.isSome_iff_exists.1 (by decide)

/-- A machine whose filter has no feedback. -/
def noFeedback : State := { largeHistory with cfg := { base.cfg with cA1 := 0, cA2 := 0 } }

theorem witness_FillCompletesWithoutFeedback :
    ({ noFeedback.cfg with cA1 := Config.default.cA1, cA2 := Config.default.cA2 } : Config).DefaultConstants ∧
    noFeedback.cfg.cA1 = 0 ∧ noFeedback.cfg.cA2 = 0 ∧ NoiseInv noFeedback ∧ noFeedback.owner.get 2 = .P ∧
    (∀ i, -268435456 < (noFeedback.filt.xHist.get i).toInt ∧ (noFeedback.filt.xHist.get i).toInt < 268435456) := by
  unfold Config.DefaultConstants; decide

/-- The first sample of a fill is large and fits, the second overflows (BQ-5c, then twice its output). -/
def growing : State := { sized 2 with filt := ⟨⟨0, 0, 0⟩, 0, ⟨0x30000000, 0⟩, 1⟩ }

theorem witness_FillFaultKeepsEarlierWords_overflow :
    (1 : Nat) < growing.cfg.bufWords ∧ ∃ t u, fillByHand 0 1 0 growing = some t ∧ exec .sample t = .next u ∧
      u.result = .fault .arithOverflow :=
  ⟨by decide, _, _, rfl, rfl, by decide⟩
theorem witness_FillFaultKeepsEarlierWords_owner :
    (0 : Nat) < started.cfg.bufWords ∧ fillByHand 0 0 0 started = some started ∧ started.owner.get 0 = .E ∧
      ∃ u, exec .sample started = .next u ∧ ∃ y, u.result = .fx y :=
  ⟨by decide, rfl, rfl, _, rfl, 0, by decide⟩
theorem witness_DstartStartsTheTransfer :
    started.cnt ≠ 0 ∧ (({ two with owner := ⟨.E, .P, .P⟩ } : State).cnt = 0 ∧
      ({ two with owner := ⟨.E, .P, .P⟩ } : State).owner.get 0 = .E) ∧ (two.cnt = 0 ∧ two.owner.get 0 = .P) := by decide

/-- One transfer outstanding and done. -/
def finished : State := { started with slot := ⟨⟨.done, some 0, 2⟩, Slot.empty⟩ }

theorem witness_DnextBindsTheOtherSlot :
    (started.cnt = 1 ∧ started.owner.get 1 = .P ∧ (started.slot.get started.head).st = .running) ∧
    (finished.cnt = 1 ∧ finished.owner.get 1 = .P ∧ (finished.slot.get finished.head).st = .done) := by decide
theorem witness_DnextReclaimsTheOldest :
    (swapping.cnt = 2 ∧ swapping.owner.get 2 = .P ∧ (swapping.slot.get swapping.head).st = .done ∧
      (swapping.slot.get swapping.head).buf = some 0 ∧ (swapping.slot.get (1 - swapping.head)).st = .running) ∧
    (ranOut.cnt = 2 ∧ ranOut.owner.get 2 = .P ∧ (ranOut.slot.get ranOut.head).st = .done ∧
      (ranOut.slot.get ranOut.head).buf = some 0 ∧ (ranOut.slot.get (1 - ranOut.head)).st = .done) := by decide
theorem witness_DnextFaultsInOrder :
    two.cnt = 0 ∧ (armed.cnt ≠ 0 ∧ armed.owner.get 1 = .E) ∧
    (armed.cnt = 2 ∧ armed.owner.get 2 = .P ∧ (armed.slot.get armed.head).st ≠ .done) := by decide
theorem witness_DwaitReclaimsWithoutReplacement :
    two.cnt = 0 ∧ (started.cnt ≠ 0 ∧ (started.slot.get started.head).st ≠ .done) ∧
    (finished.cnt ≠ 0 ∧ (finished.slot.get finished.head).st = .done ∧ (finished.slot.get finished.head).buf = some 0) := by
  decide
/-- The first word of a transfer, and the last word with a slot armed behind it. -/
theorem witness_DxferMovesOneWord :
    ((started.slot.get 0).st = .running ∧ (started.slot.get (1 - 0)).st ≠ .running ∧ (started.slot.get 0).buf = some 0 ∧
      (started.slot.get 0).idx + 1 < started.cfg.bufWords ∧ started.fifo.length < started.cfg.fifoDepth) ∧
    ((armed.slot.get 0).st = .running ∧ (armed.slot.get (1 - 0)).st = .idle ∧ (armed.slot.get (1 - 0)).buf ≠ none ∧
      (armed.slot.get 0).buf = some 0 ∧ (armed.slot.get 0).idx + 1 = armed.cfg.bufWords ∧
      armed.fifo.length < armed.cfg.fifoDepth) := by decide
theorem witness_DxferHoldsWithoutWork :
    (∀ k, (ranOut.slot.get k).st ≠ .running) ∧
    (({ armed with fifo := [1, 2, 3, 4] } : State).cfg.fifoDepth : Nat) ≤ ({ armed with fifo := [1, 2, 3, 4] } : State).fifo.length := by
  decide
theorem witness_KickStartsTheOldestArmed :
    (∃ k, (armed.slot.get k).st = .running) ∧ (∀ k, (ranOut.slot.get k).st ≠ .running) := by decide

/-- A harness hands over the third buffer of a machine that has run out. -/
def handingOver : State := { ranOut with program := [0x42, 2] }

theorem witness_EngineInvKeptByEveryStep :
    EngineInv handingOver ∧ ∃ t, step handingOver = .next t ∧ (t.slot.get 0).st = .running :=
  ⟨by decide, _, rfl, by decide⟩
theorem witness_EngineOwnedBufferNeverMutated :
    Instr.bufwr 0 1 0xDEADBEEF ≠ .reset ∧ started.owner.get 0 = .E ∧ ∃ t, exec (.bufwr 0 1 0xDEADBEEF) started = .next t :=
  ⟨by decide, rfl, _, rfl⟩
theorem witness_StorageInvKeptByEveryStep :
    StorageInv { armed with program := [0x33, 2, 1, 0, 0, 0, 1, 2, 3, 4] } ∧
    ∃ t, step { armed with program := [0x33, 2, 1, 0, 0, 0, 1, 2, 3, 4] } = .next t ∧ t.memRead 2 1 = 0x04030201 :=
  ⟨by decide, _, rfl, by decide⟩

/-- The last word of buffer 0 is to be filled. -/
def filling : State := { sized 2 with sched := ⟨.primeFill0, 1, none⟩ }

theorem witness_SchstepFillsOneWord :
    (fillStateOf filling = some (0, .primeStart) ∧ filling.status.fault = 0 ∧ filling.sched.fillI < filling.cfg.bufWords ∧
      (fillByHand 0 1 filling.sched.fillI filling).isSome = true) ∧
    (fillStateOf { filling with sched := ⟨.runFill, 0, some 2⟩ } = some (2, .runNext)) ∧
    nextHas (exec .sample { filling with filt := loud }) (fun t => decide (t.result = .fault .arithOverflow)) = true ∧
    nextHas (exec .sample { filling with owner := ⟨.E, .P, .P⟩ }) (fun t => decide (t.result = .fx 0)) = true := by decide
theorem witness_SchstepIssuesTheCommand :
    nextHas (exec (.dstart 0) { two with sched := ⟨.primeStart, 0, none⟩ }) (fun t => decide (t.result = .unit)) = true ∧
    nextHas (exec (.dnext 1) { started with sched := ⟨.primeNext1, 0, none⟩ }) (fun t => decide (t.result = .buffer none)) = true ∧
    nextHas (exec .dwait { swapping with sched := ⟨.primeWait, 0, none⟩ })
      (fun t => decide (t.result = .buffer (some 0))) = true ∧
    nextHas (exec .dwait { armed with sched := ⟨.primeWait, 0, none⟩ }) (fun t => decide (t.result = .held)) = true ∧
    nextHas (exec (.dnext 2) { finished with sched := ⟨.primeNext2, 0, some 0⟩ }) (fun t => decide (t.result = .buffer none)) = true ∧
    nextHas (exec (.dnext 2) { ranOut with sched := ⟨.runNext, 0, some 2⟩ })
      (fun t => decide (t.result = .buffer (some 0))) = true ∧
    nextHas (exec (.dstart 0) { started with sched := ⟨.primeStart, 0, none⟩ })
      (fun t => decide (t.result = .fault .protocolViolation)) = true := by decide
theorem witness_SchstepPolls :
    swapping.status.fault = 0 ∧ ({ swapping with sched := ⟨.runPoll, 0, some 2⟩ } : State).sched.sch = .runPoll := by decide
theorem witness_SchstepStopsAfterFault : ({ base with status := ⟨1, 0x23, false, false⟩ } : State).status.fault ≠ 0 := by decide
theorem witness_PipelineRunsForEver :
    (PipelineInv base ∧ base.program = []) ∧
    (PipelineInv { swapping with sched := ⟨.runFill, 1, some 2⟩ } ∧
      ({ swapping with sched := ⟨.runFill, 1, some 2⟩ } : State).program = []) :=
  ⟨⟨⟨by decide, by decide, ⟨rfl, rfl⟩, by decide, by decide⟩, rfl⟩,
   ⟨⟨by decide, by decide, ⟨rfl, rfl, 2, rfl, rfl, rfl⟩, by decide, by decide⟩, rfl⟩⟩
theorem witness_SqtickShiftsHalfABit :
    ({ base with seq := ⟨0, 31, true, true⟩ } : State).seq.phase = true ∧
    (base.seq.phase = false ∧ base.seq.bitcnt = 0 ∧ base.fifo = []) ∧
    (armed.seq.phase = false ∧ armed.seq.bitcnt = 0 ∧ armed.fifo = 0xB0000000 :: []) ∧
    (({ base with seq := ⟨0, 16, false, true⟩ } : State).seq.phase = false ∧
      ({ base with seq := ⟨0, 16, false, true⟩ } : State).seq.bitcnt ≠ 0) := by decide
theorem witness_FrameSendsTheWord :
    armed.seq.phase = false ∧ armed.seq.bitcnt = 0 ∧ armed.fifo = 0xB0000000 :: [] := by decide
/-- Vectors DV-7, DV-10 (the ends of the range), DV-5 (a tie), DV-9, DV-11 (outside). -/
theorem witness_DivcalcRoundsToNearest :
    (2 * (2 * 500000) * 256 ≤ 512 * 1000000 + 2 * 500000 ∧ 512 * 1000000 + 2 * 500000 < 2 * (2 * 500000) * (256 + 1) ∧
      1 ≤ 256 / 256) ∧
    (2 * (2 * 256) * 301 ≤ 512 * 601 + 2 * 256 ∧ 512 * 601 + 2 * 256 < 2 * (2 * 256) * (301 + 1)) ∧
    (2 * (2 * 30518) * 16776984 ≤ 512 * 4000000000 + 2 * 30518 ∧
      512 * 4000000000 + 2 * 30518 < 2 * (2 * 30518) * (16776984 + 1) ∧ 16776984 / 256 = 65535) ∧
    (2 * (2 * 501000) * 255 ≤ 512 * 1000000 + 2 * 501000 ∧ 512 * 1000000 + 2 * 501000 < 2 * (2 * 501000) * (255 + 1) ∧
      255 / 256 = 0) ∧
    (2 * (2 * 30000) * 17066667 ≤ 512 * 4000000000 + 2 * 30000 ∧
      512 * 4000000000 + 2 * 30000 < 2 * (2 * 30000) * (17066667 + 1) ∧ 65535 < 17066667 / 256) := by decide
theorem witness_FirstFaultIsRecorded :
    base.status.fault = 0 ∧ ({ base with status := ⟨1, 0x23, false, false⟩ } : State).status.fault ≠ 0 := by decide
theorem witness_StatusClearedOnlyByReset :
    Instr.q15 0x00010000 ≠ .reset ∧ (∃ t, exec (.q15 0x00010000) base = .next t) ∧ base.status.fault = 0 ∧
    ∃ t, exec (.q15 0x00010000) { base with status := ⟨1, 0x23, true, true⟩ } = .next t :=
  ⟨by decide, ⟨_, rfl⟩, rfl, _, rfl⟩
theorem witness_ConfigurationNeverWritten :
    (∃ t, exec (.divcalc 601 2 256) base = .next t) ∧ Instr.divcalc 601 2 256 ≠ .reset ∧ ∃ t, exec .reset armed = .next t :=
  ⟨⟨_, rfl⟩, by decide, _, rfl⟩
theorem witness_AgentsTouchOnlyTheirState :
    (∃ t, exec .schstep base = .next t) ∧ (∃ t, exec .dxfer armed = .next t) ∧ ∃ t, exec .sqtick armed = .next t :=
  ⟨⟨_, rfl⟩, ⟨_, rfl⟩, _, rfl⟩
theorem witness_ResetGivesTheResetState :
    base.cfg.rng = .xs64 ∧ ({ base.cfg with rng := .other } : Config).rng = .other ∧
    (let c : Config := { base.cfg with seed := 0 }; c.rng = .xs64 ∧ c.seed = 0) ∧
    (let c : Config := { base.cfg with clkdiv := 0x0000FF00 }
     ¬ (c.rng = .xs64 ∧ c.seed = 0) ∧ (c.clkdiv.toNat / 65536 = 0 ∨ c.clkdiv.toNat % 256 ≠ 0)) ∧
    (let c : Config := { base.cfg with clkdiv := 0x00010000 }
     ¬ (c.rng = .xs64 ∧ c.seed = 0) ∧ ¬ (c.clkdiv.toNat / 65536 = 0 ∨ c.clkdiv.toNat % 256 ≠ 0)) := by decide
theorem witness_DecodeInvertsEncode :
    (Instr.bufwr 2 4294967295 0).encodable = true ∧ (Instr.divcalc 18446744073709551616 1 2).encodable = true := by decide
theorem witness_EncodeInvertsDecode : decode [0x42, 2, 0x60] = .ok (.dnext 2, [0x60]) := by decide
theorem witness_StepRunsTheDecodedOperation : decode handingOver.program = .ok (.dnext 2, []) := by decide
theorem witness_ReservedOperationsRefused :
    (∀ o : OpId, o.code ≠ (0x00 : Byte)) ∧ (∀ o : OpId, o.code ≠ (0xFF : Byte)) ∧
    ({ base with program := [0x00] } : State).program = 0x00 :: [] ∧ 3 ≤ (3 : Byte).toNat ∧
    ({ base with program := [0x42, 3] } : State).program = OpId.dnext.code :: 3 :: [] :=
  ⟨fun o => by cases o <;> decide, fun o => by cases o <;> decide, rfl, by decide, rfl⟩
/-- Each condition of R296 met and failed: a fault, a held `DWAIT`, `DWAIT` with nothing outstanding (it steps, into its fault),
no running slot, a full FIFO. -/
theorem witness_StepTakesAnyEnabledAgent :
    armed.program = [] ∧ armed.enabled .producer = true ∧ armed.enabled .engine = true ∧
    ({ armed with status := ⟨1, 0x23, false, false⟩ } : State).enabled .producer = false ∧
    ({ armed with sched := ⟨.primeWait, 0, none⟩ } : State).enabled .producer = false ∧
    ({ swapping with sched := ⟨.primeWait, 0, none⟩ } : State).enabled .producer = true ∧
    ({ two with sched := ⟨.primeWait, 0, none⟩ } : State).enabled .producer = true ∧
    ranOut.enabled .engine = false ∧ ({ armed with fifo := [1, 2, 3, 4] } : State).enabled .engine = false := by
  decide

end Sys2Proof.Tests
end

section
/-! SUPPORT. The fixed-point family (`40_fixed_point.md` R120 to R125): what rounding, range check and the end of an operation
do, each said once, and from that the six statements. -/
namespace Sys2Proof.Machine

open Sys2Proof

/-! ## The range check on exact integers -/

theorem fxOfInt_of_not_inFx {v : Int} (h : ¬ InFx v) : fxOfInt v = none :=
  (fxOfInt_eq_none_iff v).2 (by omega)

/-- A checked integer handed to a second exact computation: both checks must pass (R127). -/
theorem fxOfInt_bind_fxOfInt (m : Int) (f : Int → Int) :
    ((fxOfInt m).bind fun r => fxOfInt (f r.toInt)) = if InFx m then fxOfInt (f m) else none := by
  by_cases hm : InFx m
  · obtain ⟨r, hr, hrm⟩ := exists_fxOfInt hm.1 hm.2
    rw [hr, if_pos hm, Option.bind_some, hrm]
  · rw [fxOfInt_of_not_inFx hm, if_neg hm, Option.bind_none]

/-- 0x80000000 is the one FX value whose negation is none (R122). -/
theorem inFx_neg_toInt_iff (a : FX) : InFx (-a.toInt) ↔ a ≠ 0x80000000 := by
  have hmin : a = 0x80000000 ↔ a.toInt = -2147483648 := by
    rw [← BitVec.toInt_inj]; rfl
  have hb := fx_bounds a
  rw [ne_eq, hmin]
  omega

/-! ## The rounded product -/

/-- The two inequalities of `IsFloor` determine the quotient. -/
theorem IsFloor.ediv_eq {q x : Int} (h : IsFloor q x) : x / 65536 = q := by
  obtain ⟨hle, hlt⟩ := h
  omega

theorem fxMul_of_isFloor {a b : FX} {q : Int} (h : IsFloor q (a.toInt * b.toInt)) : fxMul a b = fxOfInt q := by
  rw [fxMul, h.ediv_eq]

theorem fxMac_of_isFloor {a b : FX} {m : Int} (acc : FX) (h : IsFloor m (a.toInt * b.toInt)) :
    fxMac acc a b = if InFx m then fxOfInt (acc.toInt + m) else none := by
  rw [← fxOfInt_bind_fxOfInt m (acc.toInt + ·), ← fxMul_of_isFloor h]
  rfl

theorem fxMsub_of_isFloor {a b : FX} {m : Int} (acc : FX) (h : IsFloor m (a.toInt * b.toInt)) :
    fxMsub acc a b = if InFx m then fxOfInt (acc.toInt - m) else none := by
  rw [← fxOfInt_bind_fxOfInt m (acc.toInt - ·), ← fxMul_of_isFloor h]
  rfl

/-! ## The end of a fixed-point operation -/

@[simp] theorem concludeFx_some (o : OpId) (s : State) (r : FX) :
    concludeFx o s (some r) = .next { s with result := .fx r } := rfl

@[simp] theorem concludeFx_none (o : OpId) (s : State) :
    concludeFx o s none = .next (s.takeFault ⟨.arithOverflow, o⟩) := rfl

/-- An operation that ends with a checked integer gives its FX value and changes nothing else, or overflows under its own
identifier (R127, R281). -/
theorem concludeFx_fxOfInt (o : OpId) (s : State) (v : Int) :
    (InFx v → ∃ r : FX, r.toInt = v ∧ concludeFx o s (fxOfInt v) = .next { s with result := .fx r }) ∧
    (¬ InFx v → concludeFx o s (fxOfInt v) = .next (s.takeFault ⟨.arithOverflow, o⟩)) := by
  constructor
  · rintro ⟨hlo, hhi⟩
    obtain ⟨r, hr, hrv⟩ := exists_fxOfInt hlo hhi
    exact ⟨r, hrv, by rw [hr, concludeFx_some]⟩
  · intro hv
    rw [fxOfInt_of_not_inFx hv, concludeFx_none]

/-- As `concludeFx_fxOfInt`, for an operation that checks an intermediate value `m` first (R124, R125). -/
theorem concludeFx_guarded_fxOfInt (o : OpId) (s : State) (m v : Int) :
    (InFx m ∧ InFx v → ∃ r : FX, r.toInt = v ∧
      concludeFx o s (if InFx m then fxOfInt v else none) = .next { s with result := .fx r }) ∧
    (¬ (InFx m ∧ InFx v) →
      concludeFx o s (if InFx m then fxOfInt v else none) = .next (s.takeFault ⟨.arithOverflow, o⟩)) := by
  obtain ⟨hok, hfault⟩ := concludeFx_fxOfInt o s v
  by_cases hm : InFx m
  · rw [if_pos hm]
    exact ⟨fun h => hok h.2, fun h => hfault fun hv => h ⟨hm, hv⟩⟩
  · rw [if_neg hm]
    exact ⟨fun h => absurd h.1 hm, fun _ => concludeFx_none o s⟩

/-! ## The six operations as `concludeFx` of their value -/

theorem exec_fxadd (a b : FX) (s : State) :
    exec (.fxadd a b) s = concludeFx .fxadd s (fxOfInt (a.toInt + b.toInt)) := rfl

theorem exec_fxsub (a b : FX) (s : State) :
    exec (.fxsub a b) s = concludeFx .fxsub s (fxOfInt (a.toInt - b.toInt)) := rfl

theorem exec_fxneg (a : FX) (s : State) :
    exec (.fxneg a) s = concludeFx .fxneg s (fxOfInt (-a.toInt)) := rfl

theorem exec_fxmul (a b : FX) (s : State) :
    exec (.fxmul a b) s = concludeFx .fxmul s (fxMul a b) := rfl

theorem exec_fxmac (acc a b : FX) (s : State) :
    exec (.fxmac acc a b) s = concludeFx .fxmac s (fxMac acc a b) := rfl

theorem exec_fxmsub (acc a b : FX) (s : State) :
    exec (.fxmsub acc a b) s = concludeFx .fxmsub s (fxMsub acc a b) := rfl

/-! ## The obligations -/

/-- Settles O1: `FXADD` ends with the checked exact sum. -/
theorem fxaddGivesExactSum : Obligations.FxaddGivesExactSum := by
  intro a b s
  rw [exec_fxadd]
  exact concludeFx_fxOfInt .fxadd s (a.toInt + b.toInt)

/-- Settles O2: `FXSUB` ends with the checked exact difference. -/
theorem fxsubGivesExactDifference : Obligations.FxsubGivesExactDifference := by
  intro a b s
  rw [exec_fxsub]
  exact concludeFx_fxOfInt .fxsub s (a.toInt - b.toInt)

/-- Settles O3: the negation is out of range for the minimum only. -/
theorem fxnegFaultsOnlyAtMinimum : Obligations.FxnegFaultsOnlyAtMinimum := by
  intro a s
  obtain ⟨hok, hfault⟩ := concludeFx_fxOfInt .fxneg s (-a.toInt)
  rw [exec_fxneg]
  constructor
  · intro ha
    exact hok ((inFx_neg_toInt_iff a).2 ha)
  · intro ha
    exact hfault fun hin => (inFx_neg_toInt_iff a).1 hin ha

/-- Settles O4: any `q` that meets the two inequalities of the floor is the integer `FXMUL` checks. -/
theorem fxmulFloorsTheProduct : Obligations.FxmulFloorsTheProduct := by
  intro a b q s hq
  rw [exec_fxmul, fxMul_of_isFloor hq]
  exact concludeFx_fxOfInt .fxmul s q

/-- Settles O5: the floored product is checked first, then its exact sum with the accumulator. -/
theorem fxmacAddsTheRoundedProduct : Obligations.FxmacAddsTheRoundedProduct := by
  intro acc a b m s hm
  rw [exec_fxmac, fxMac_of_isFloor acc hm]
  exact concludeFx_guarded_fxOfInt .fxmac s m (acc.toInt + m)

/-- Settles O6: the floored product is checked first, then its exact difference from the accumulator. -/
theorem fxmsubSubtractsTheRoundedProduct : Obligations.FxmsubSubtractsTheRoundedProduct := by
  intro acc a b m s hm
  rw [exec_fxmsub, fxMsub_of_isFloor acc hm]
  exact concludeFx_guarded_fxOfInt .fxmsub s m (acc.toInt - m)

end Sys2Proof.Machine
end

section
/-! SUPPORT. The noise family (`41_noise.md` R142 to R148): what the random source, the white-noise mapping and the brown-noise
step compute on exact numbers, and from that the four statements. -/
namespace Sys2Proof.Machine

open Sys2Proof

/-! ## The random source (R142, R143) -/

/-- The three shift and exclusive-or steps of XS64 on natural numbers modulo 2^64. -/
theorem toNat_xs64Next (v : BitVec 64) :
    (xs64Next v).toNat =
      (let n1 := v.toNat ^^^ (v.toNat * 2 ^ 13 % 2 ^ 64)
       let n2 := n1 ^^^ (n1 / 2 ^ 7)
       n2 ^^^ (n2 * 2 ^ 17 % 2 ^ 64)) := by
  simp only [xs64Next, BitVec.toNat_xor, BitVec.toNat_shiftLeft, BitVec.toNat_ushiftRight,
    Nat.shiftLeft_eq, Nat.shiftRight_eq_div_pow]

theorem setWidth_eq_ofNat_mod {n : Nat} (v : BitVec n) (m : Nat) :
    v.setWidth m = BitVec.ofNat m (v.toNat % 2 ^ m) := by
  apply BitVec.eq_of_toNat_eq
  rw [BitVec.toNat_setWidth, BitVec.toNat_ofNat, Nat.mod_mod]

theorem exec_rngnext (s : State) :
    exec .rngnext s =
      .next { s with rngState := (rngNext s.rngState).1, result := .word (rngNext s.rngState).2 } := rfl

/-- Settles O8: XS64 by its three steps on natural numbers, another source by its own `rng_next`. -/
theorem rngnextAdvancesTheSource : Obligations.RngnextAdvancesTheSource := by
  constructor
  · intro v s hs
    refine ⟨xs64Next v, toNat_xs64Next v, ?_⟩
    rw [exec_rngnext, hs, ← setWidth_eq_ofNat_mod]
    rfl
  · intro v s hs
    rw [exec_rngnext, hs]
    rfl

/-! ## White noise (R144) -/

/-- The magnitude is the low half of the random word. -/
theorem toInt_randMag (r : Word) : (randMag r).toInt = ((r.toNat % 65536 : Nat) : Int) := by
  have hmag : (randMag r).toNat = r.toNat % 65536 := by
    simp only [randMag, BitVec.toNat_setWidth, BitVec.extractLsb'_toNat, Nat.shiftRight_zero]
    omega
  rw [BitVec.toInt_eq_toNat_of_lt (by omega), hmag]

theorem randSign_iff (r : Word) : randSign r = true ↔ 2 ^ 31 ≤ r.toNat := by
  have hmsb : randSign r = r.msb := (BitVec.msb_eq_getLsbD_last r).symm
  rw [hmsb, BitVec.msb_eq_decide, decide_eq_true_iff]

/-- Negating a magnitude is exact. -/
theorem toInt_neg_randMag (r : Word) : (-(randMag r)).toInt = -(randMag r).toInt := by
  obtain ⟨-, -, h⟩ := (fxOfInt_eq_some_iff _ _).1 (white_negation_is_fxNeg r)
  exact h

theorem toInt_whiteSample (r : Word) :
    (whiteSample r).toInt =
      if 2 ^ 31 ≤ r.toNat then -((r.toNat % 65536 : Nat) : Int) else ((r.toNat % 65536 : Nat) : Int) := by
  by_cases hsign : 2 ^ 31 ≤ r.toNat
  · rw [if_pos hsign, whiteSample, if_pos ((randSign_iff r).2 hsign), toInt_neg_randMag, toInt_randMag]
  · rw [if_neg hsign, whiteSample, if_neg (mt (randSign_iff r).1 hsign), toInt_randMag]

/-- The interval of a white sample (R144). -/
theorem whiteSample_bounds (r : Word) : -65535 ≤ (whiteSample r).toInt ∧ (whiteSample r).toInt ≤ 65535 := by
  rw [toInt_whiteSample]
  split <;> omega

theorem exec_white (r : Word) (s : State) : exec (.white r) s = .next { s with result := .fx (whiteSample r) } := rfl

/-- Settles O9: the result is `whiteSample r`, whose value `toInt_whiteSample` gives. -/
theorem whiteTakesMagnitudeAndSign : Obligations.WhiteTakesMagnitudeAndSign :=
  fun r s => ⟨whiteSample r, toInt_whiteSample r, exec_white r s⟩

/-! ## Brown noise (R145) -/

/-- The next `NOISE_STATE` on exact integers (R145): the candidate `p + t`, reflected to `p - t` when it is at or outside the
boundary. -/
def brownNext (bound p t : Int) : Int := if p + t ≤ -bound ∨ p + t ≥ bound then p - t else p + t

/-- Every intermediate value of a brown-noise step is an FX value: leak, step, candidate, next state, output. -/
abbrev BrownInFx (p t c o : Int) : Prop := InFx p ∧ InFx t ∧ InFx (p + t) ∧ InFx c ∧ InFx o

theorem inFx_toInt (a : FX) : InFx a.toInt := fx_bounds a

/-- `fxOfInt_eq_some_iff` without its range check, which the value of `r` implies. -/
theorem fxOfInt_eq_some_iff_toInt (v : Int) (r : FX) : fxOfInt v = some r ↔ r.toInt = v := by
  rw [fxOfInt_eq_some_iff]
  constructor
  · rintro ⟨-, -, h⟩
    exact h
  · rintro rfl
    exact ⟨(inFx_toInt r).1, (inFx_toInt r).2, rfl⟩

/-- The boundary test of R145 and its two branches, with what follows them, check the integer `brownNext`. -/
theorem reflect_bind_eq_fxOfInt_bind {bound p t cand : FX} (hcand : fxAdd p t = some cand) (f : FX → Option (FX × FX)) :
    (if cand.toInt ≤ -bound.toInt ∨ cand.toInt ≥ bound.toInt then (fxSub p t).bind f else f cand) =
      (fxOfInt (brownNext bound.toInt p.toInt t.toInt)).bind f := by
  rw [(fxOfInt_eq_some_iff_toInt _ _).1 hcand, brownNext]
  split
  · rfl
  · exact (congrArg (Option.bind · f) hcand).symm

/-- `brownStep` as five checked exact values, one after another (R145). -/
theorem brownStep_eq_bind (c : Config) (noise w : FX) :
    brownStep c noise w =
      (fxMul c.cLeak noise).bind fun p => (fxMul w c.cStep).bind fun t => (fxAdd p t).bind fun _ =>
        (fxOfInt (brownNext c.cBound.toInt p.toInt t.toInt)).bind fun next =>
          (fxMul next c.cVol).bind fun out => some (next, out) := by
  refine Option.bind_congr fun p _ => Option.bind_congr fun t _ => Option.bind_congr fun cand hcand => ?_
  exact reflect_bind_eq_fxOfInt_bind hcand _

/-- `BROWN` on values answers exactly the next state and output of R145, when leak, step and candidate are FX values; that the
next state and the output are is said by the existence of `n` and `e`. -/
theorem brownStep_eq_some_iff {c : Config} {noise w : FX} {p t o : Int} (n e : FX)
    (hp : IsFloor p (c.cLeak.toInt * noise.toInt)) (ht : IsFloor t (w.toInt * c.cStep.toInt))
    (ho : IsFloor o (brownNext c.cBound.toInt p t * c.cVol.toInt)) :
    brownStep c noise w = some (n, e) ↔
      InFx p ∧ InFx t ∧ InFx (p + t) ∧ n.toInt = brownNext c.cBound.toInt p t ∧ e.toInt = o := by
  simp only [brownStep_eq_bind, fxMul_of_isFloor hp, fxMul_of_isFloor ht, fxAdd,
    Option.bind_eq_some_iff, fxOfInt_eq_some_iff_toInt, Option.some.injEq, Prod.mk.injEq]
  constructor
  · rintro ⟨p', rfl, t', rfl, cand, hcand, next, hnext, out, hout, rfl, rfl⟩
    rw [← hnext] at ho
    rw [fxMul_of_isFloor ho, fxOfInt_eq_some_iff_toInt] at hout
    exact ⟨inFx_toInt p', inFx_toInt t', hcand ▸ inFx_toInt cand, hnext, hout⟩
  · rintro ⟨⟨hplo, hphi⟩, ⟨htlo, hthi⟩, ⟨hclo, hchi⟩, hn, he⟩
    obtain ⟨p', -, rfl⟩ := exists_fxOfInt hplo hphi
    obtain ⟨t', -, rfl⟩ := exists_fxOfInt htlo hthi
    obtain ⟨cand, -, hcand⟩ := exists_fxOfInt hclo hchi
    rw [← hn] at ho
    have hout : fxMul n c.cVol = some e := by
      rw [fxMul_of_isFloor ho, fxOfInt_eq_some_iff_toInt, he]
    exact ⟨p', rfl, t', rfl, cand, hcand, n, hn, e, hout, rfl, rfl⟩

/-- No overflow when every step fits (R127, R145). -/
theorem brownStep_of_inFx {c : Config} {noise w : FX} {p t o : Int}
    (hp : IsFloor p (c.cLeak.toInt * noise.toInt)) (ht : IsFloor t (w.toInt * c.cStep.toInt))
    (ho : IsFloor o (brownNext c.cBound.toInt p t * c.cVol.toInt))
    (h : BrownInFx p t (brownNext c.cBound.toInt p t) o) :
    ∃ n e : FX, n.toInt = brownNext c.cBound.toInt p t ∧ e.toInt = o ∧ brownStep c noise w = some (n, e) := by
  obtain ⟨hpin, htin, hsum, ⟨hclo, hchi⟩, ⟨holo, hohi⟩⟩ := h
  obtain ⟨n, -, hn⟩ := exists_fxOfInt hclo hchi
  obtain ⟨e, -, he⟩ := exists_fxOfInt holo hohi
  exact ⟨n, e, hn, he, (brownStep_eq_some_iff n e hp ht ho).2 ⟨hpin, htin, hsum, hn, he⟩⟩

/-- Overflow when one step does not fit (R127, R145). -/
theorem brownStep_of_not_inFx {c : Config} {noise w : FX} {p t o : Int}
    (hp : IsFloor p (c.cLeak.toInt * noise.toInt)) (ht : IsFloor t (w.toInt * c.cStep.toInt))
    (ho : IsFloor o (brownNext c.cBound.toInt p t * c.cVol.toInt))
    (h : ¬ BrownInFx p t (brownNext c.cBound.toInt p t) o) : brownStep c noise w = none := by
  rw [Option.eq_none_iff_forall_ne_some]
  rintro ⟨n, e⟩ hstep
  obtain ⟨hpin, htin, hsum, hn, he⟩ := (brownStep_eq_some_iff n e hp ht ho).1 hstep
  exact h ⟨hpin, htin, hsum, hn ▸ inFx_toInt n, he ▸ inFx_toInt e⟩

theorem exec_brown_of_some {w n e : FX} {s : State} (h : brownStep s.cfg s.noiseState w = some (n, e)) :
    exec (.brown w) s = .next { s with noiseState := n, result := .fx e } := by
  change execBrown w s = _
  rw [execBrown, h]
  rfl

theorem exec_brown_of_none {w : FX} {s : State} (h : brownStep s.cfg s.noiseState w = none) :
    exec (.brown w) s = .next (s.takeFault ⟨.arithOverflow, .brown⟩) := by
  change execBrown w s = _
  rw [execBrown, h]
  rfl

/-- Settles O10: `brownStep` answers exactly when every step fits, and `BROWN` ends with its answer or its overflow. -/
theorem brownReflectsAtTheBoundary : Obligations.BrownReflectsAtTheBoundary := by
  intro w p t o s hp ht c ho
  constructor
  · intro hfits
    obtain ⟨n, e, hn, he, hstep⟩ := brownStep_of_inFx hp ht ho hfits
    exact ⟨n, e, hn, he, exec_brown_of_some hstep⟩
  · intro hover
    exact exec_brown_of_none (brownStep_of_not_inFx hp ht ho hover)

/-! ## The boundary property (R146, R148) -/

theorem isFloor_ediv (x : Int) : IsFloor (x / 65536) x := by
  constructor <;> omega

/-- The numbers of `BROWN`'s four constants in the default configuration (R91). -/
theorem Config.DefaultConstants.brown_toInt {c : Config} (h : c.DefaultConstants) :
    c.cLeak.toInt = 65339 ∧ c.cStep.toInt = 655 ∧ c.cBound.toInt = 16384 ∧ c.cVol.toInt = 16384 := by
  obtain ⟨-, -, -, -, -, hleak, hstep, hbound, hvol⟩ := h
  rw [hleak, hstep, hbound, hvol]
  decide

/-- R146: with `p` and `t` as the default constants bound them, the candidate or its reflection is inside the boundary. A
candidate is outside only when `t` is at least 50 away from 0 on its side, and then the reflection moves `p` inwards. -/
theorem brownNext_inside {p t : Int} (hplo : -16334 ≤ p) (hphi : p ≤ 16333) (htlo : -655 ≤ t) (hthi : t ≤ 654) :
    -16384 < brownNext 16384 p t ∧ brownNext 16384 p t < 16384 := by
  unfold brownNext
  split <;> omega

/-- R146, R148 on values: from inside the boundary a white sample never overflows `BROWN`, the next state is inside the boundary
and the output is its floored quarter. -/
theorem brownStep_whiteSample_inside {c : Config} {noise : FX} (hc : c.DefaultConstants)
    (hlo : -16384 < noise.toInt) (hhi : noise.toInt < 16384) (r : Word) :
    ∃ n e : FX, brownStep c noise (whiteSample r) = some (n, e) ∧
      -16384 < n.toInt ∧ n.toInt < 16384 ∧ -4096 ≤ e.toInt ∧ e.toInt ≤ 4095 := by
  obtain ⟨hleak, hstep, hbound, hvol⟩ := Config.DefaultConstants.brown_toInt hc
  obtain ⟨hwlo, hwhi⟩ := whiteSample_bounds r
  obtain ⟨p, hp⟩ : ∃ p, IsFloor p (c.cLeak.toInt * noise.toInt) := ⟨_, isFloor_ediv _⟩
  obtain ⟨t, ht⟩ : ∃ t, IsFloor t ((whiteSample r).toInt * c.cStep.toInt) := ⟨_, isFloor_ediv _⟩
  obtain ⟨o, ho⟩ : ∃ o, IsFloor o (brownNext c.cBound.toInt p t * c.cVol.toInt) := ⟨_, isFloor_ediv _⟩
  have hpb : -16334 ≤ p ∧ p ≤ 16333 := by
    rw [hleak] at hp
    omega
  have htb : -655 ≤ t ∧ t ≤ 654 := by
    rw [hstep] at ht
    omega
  have hcb : -16384 < brownNext c.cBound.toInt p t ∧ brownNext c.cBound.toInt p t < 16384 := by
    rw [hbound]
    exact brownNext_inside hpb.1 hpb.2 htb.1 htb.2
  have hob : -4096 ≤ o ∧ o ≤ 4095 := by
    rw [hvol] at ho
    omega
  have hfits : BrownInFx p t (brownNext c.cBound.toInt p t) o := by omega
  obtain ⟨n, e, hn, he, hsome⟩ := brownStep_of_inFx hp ht ho hfits
  exact ⟨n, e, hsome, hn ▸ hcb.1, hn ▸ hcb.2, he ▸ hob.1, he ▸ hob.2⟩

/-- Settles O11: the bounds of R146 on the value `BROWN` ends with. -/
theorem brownStaysInsideTheBoundary : Obligations.BrownStaysInsideTheBoundary := by
  rintro r s hc ⟨hlo, hhi⟩
  obtain ⟨n, e, hsome, hbounds⟩ := brownStep_whiteSample_inside hc hlo hhi r
  exact ⟨n, e, exec_brown_of_some hsome, hbounds⟩

end Sys2Proof.Machine
end

section
/-! SUPPORT. The biquad family (`42_biquad.md` R161 to R165): where the histories' offsets fall after a push, when the filter step
has an answer and which, and from that the four statements. -/
namespace Sys2Proof.Machine

open Sys2Proof

/-! ## The histories (R161 to R163, R165) -/

theorem FilterState.clear_xHist_get (i : Fin 3) : FilterState.clear.xHist.get i = 0 := by
  match i with
  | 0 | 1 | 2 => rfl

theorem FilterState.clear_yHist_get (i : Fin 2) : FilterState.clear.yHist.get i = 0 := by
  match i with
  | 0 | 1 => rfl

@[simp] theorem FilterState.pushX_xHist (f : FilterState) (x : FX) : (f.pushX x).xHist = f.xHist.set f.xCur x := rfl
@[simp] theorem FilterState.pushX_xCur (f : FilterState) (x : FX) : (f.pushX x).xCur = f.xCur + 1 := rfl
@[simp] theorem FilterState.pushX_yHist (f : FilterState) (x : FX) : (f.pushX x).yHist = f.yHist := rfl
@[simp] theorem FilterState.pushX_yCur (f : FilterState) (x : FX) : (f.pushX x).yCur = f.yCur := rfl

/-- Where R165's three offsets fall, counted from the cursor `c` before the input push: on `c` and the two entries before it. -/
theorem inputOffsets_after_push (c : Fin 3) : c + 1 + 2 = c ∧ c + 1 + 1 = c - 1 ∧ c + 1 = c - 2 ∧ c - 1 ≠ c ∧ c - 2 ≠ c := by
  revert c
  decide

/-- R165's two output offsets, counted backwards from the cursor. -/
theorem outputOffsets (c : Fin 2) : c + 1 = c - 1 ∧ c = c - 2 := by
  revert c
  decide

section
variable (f : FilterState) (x : FX)

theorem FilterState.pushX_newest : (f.pushX x).xHist.get ((f.pushX x).xCur + 2) = x := by
  obtain ⟨hnew, -⟩ := inputOffsets_after_push f.xCur
  rw [pushX_xHist, pushX_xCur, hnew, Three.get_set_same]

theorem FilterState.pushX_previous : (f.pushX x).xHist.get ((f.pushX x).xCur + 1) = f.xHist.get (f.xCur - 1) := by
  obtain ⟨-, hprev, -, hne, -⟩ := inputOffsets_after_push f.xCur
  rw [pushX_xHist, pushX_xCur, hprev, Three.get_set_of_ne _ _ hne]

theorem FilterState.pushX_oldest : (f.pushX x).xHist.get (f.pushX x).xCur = f.xHist.get (f.xCur - 2) := by
  obtain ⟨-, -, hold, -, hne⟩ := inputOffsets_after_push f.xCur
  rw [pushX_xHist, pushX_xCur, hold, Three.get_set_of_ne _ _ hne]

theorem FilterState.pushX_previousOutput :
    (f.pushX x).yHist.get ((f.pushX x).yCur + 1) = f.yHist.get (f.yCur - 1) := by
  rw [pushX_yHist, pushX_yCur, (outputOffsets f.yCur).1]

theorem FilterState.pushX_oldestOutput : (f.pushX x).yHist.get (f.pushX x).yCur = f.yHist.get (f.yCur - 2) := by
  rw [pushX_yHist, pushX_yCur, ← (outputOffsets f.yCur).2]

end

/-! ## The operations as next states -/

theorem exec_bqclr (s : State) : exec .bqclr s = .next { s with filt := FilterState.clear, result := .unit } := rfl

theorem exec_bqpushx (x : FX) (s : State) :
    exec (.bqpushx x) s = .next { s with filt := s.filt.pushX x, result := .unit } := rfl

theorem exec_bqpushy (y : FX) (s : State) :
    exec (.bqpushy y) s = .next { s with filt := s.filt.pushY y, result := .unit } := rfl

theorem exec_bqcomp_of_some {x y : FX} {f : FilterState} {s : State} (h : biquadStep s.cfg s.filt x = some (f, y)) :
    exec (.bqcomp x) s = .next { s with filt := f, result := .fx y } := by
  change execBqcomp x s = _
  rw [execBqcomp, h]
  rfl

theorem exec_bqcomp_of_none {x : FX} {s : State} (h : biquadStep s.cfg s.filt x = none) :
    exec (.bqcomp x) s = .next (s.takeFault ⟨.arithOverflow, .bqcomp⟩) := by
  change execBqcomp x s = _
  rw [execBqcomp, h]
  rfl

/-- Settles O13. -/
theorem bqclrClearsTheFilter : Obligations.BqclrClearsTheFilter :=
  fun s => ⟨FilterState.clear, exec_bqclr s, FilterState.clear_xHist_get, rfl, FilterState.clear_yHist_get, rfl⟩

/-- Settles O14: `FilterState.pushX` sets one entry, which the laws of `Three.set` describe, and adds 1 in `Fin 3`. -/
theorem bqpushxWritesTheOldestInput : Obligations.BqpushxWritesTheOldestInput :=
  fun x s => ⟨s.filt.xHist.set s.filt.xCur x, s.filt.xCur + 1, exec_bqpushx x s, Three.get_set_same _ _ _,
    fun _ hi => Three.get_set_of_ne _ _ hi, Fin.val_add _ _⟩

/-- Settles O15: as O14, with `Two.set` and `Fin 2`. -/
theorem bqpushyWritesTheOldestOutput : Obligations.BqpushyWritesTheOldestOutput :=
  fun y s => ⟨s.filt.yHist.set s.filt.yCur y, s.filt.yCur + 1, exec_bqpushy y s, Two.get_set_same _ _ _,
    fun _ hi => Two.get_set_of_ne _ _ hi, Fin.val_add _ _⟩

/-! ## One step of the sum -/

theorem fxMul_eq_some_iff {a b : FX} {m : Int} (h : IsFloor m (a.toInt * b.toInt)) (r : FX) :
    fxMul a b = some r ↔ r.toInt = m := by
  rw [fxMul_of_isFloor h, fxOfInt_eq_some_iff_toInt]

theorem fxMac_eq_some_iff {a b : FX} {m : Int} (h : IsFloor m (a.toInt * b.toInt)) (acc r : FX) :
    fxMac acc a b = some r ↔ InFx m ∧ r.toInt = acc.toInt + m := by
  rw [fxMac_of_isFloor acc h, Option.ite_none_right_eq_some, fxOfInt_eq_some_iff_toInt]

theorem fxMsub_eq_some_iff {a b : FX} {m : Int} (h : IsFloor m (a.toInt * b.toInt)) (acc r : FX) :
    fxMsub acc a b = some r ↔ InFx m ∧ r.toInt = acc.toInt - m := by
  rw [fxMsub_of_isFloor acc h, Option.ite_none_right_eq_some, fxOfInt_eq_some_iff_toInt]

/-! ## The filter step (R160, R164, R165) -/

/-- The difference equation on floored products. -/
abbrev biquadSum (m0 m1 m2 m3 m4 : Int) : Int := m0 + m1 + m2 - m3 - m4

/-- Every product and every partial sum of the difference equation is an FX value (R164). -/
abbrev BiquadInFx (m0 m1 m2 m3 m4 : Int) : Prop :=
  InFx m0 ∧ InFx m1 ∧ InFx (m0 + m1) ∧ InFx m2 ∧ InFx (m0 + m1 + m2) ∧ InFx m3 ∧
    InFx (m0 + m1 + m2 - m3) ∧ InFx m4 ∧ InFx (biquadSum m0 m1 m2 m3 m4)

/-- `m0` to `m4` are the floored products of `BQCOMP x`: with the new input, the two inputs pushed last before it, and the two
outputs pushed last. -/
structure BiquadProducts (c : Config) (f : FilterState) (x : FX) (m0 m1 m2 m3 m4 : Int) : Prop where
  b0 : IsFloor m0 (c.cB0.toInt * x.toInt)
  b1 : IsFloor m1 (c.cB1.toInt * (f.xHist.get (f.xCur - 1)).toInt)
  b2 : IsFloor m2 (c.cB2.toInt * (f.xHist.get (f.xCur - 2)).toInt)
  a1 : IsFloor m3 (c.cA1.toInt * (f.yHist.get (f.yCur - 1)).toInt)
  a2 : IsFloor m4 (c.cA2.toInt * (f.yHist.get (f.yCur - 2)).toInt)

/-- `biquadStep` as its five arithmetic steps on the filter before it, then the two pushes. -/
theorem biquadStep_eq_bind (c : Config) (f : FilterState) (x : FX) :
    biquadStep c f x =
      (fxMul c.cB0 x).bind fun s0 => (fxMac s0 c.cB1 (f.xHist.get (f.xCur - 1))).bind fun s1 =>
        (fxMac s1 c.cB2 (f.xHist.get (f.xCur - 2))).bind fun s2 =>
          (fxMsub s2 c.cA1 (f.yHist.get (f.yCur - 1))).bind fun s3 =>
            (fxMsub s3 c.cA2 (f.yHist.get (f.yCur - 2))).bind fun y => some ((f.pushX x).pushY y, y) := by
  simp only [biquadStep, FilterState.pushX_newest, FilterState.pushX_previous, FilterState.pushX_oldest,
    FilterState.pushX_previousOutput, FilterState.pushX_oldestOutput, Option.bind_eq_bind]

section
variable {c : Config} {f : FilterState} {x : FX} {m0 m1 m2 m3 m4 : Int}

/-- The filter step answers exactly when everything fits, and then with the sum and the two pushes. -/
theorem biquadStep_eq_some_iff (h : BiquadProducts c f x m0 m1 m2 m3 m4) (g : FilterState) (y : FX) :
    biquadStep c f x = some (g, y) ↔
      BiquadInFx m0 m1 m2 m3 m4 ∧ y.toInt = biquadSum m0 m1 m2 m3 m4 ∧ (f.pushX x).pushY y = g := by
  simp only [biquadStep_eq_bind, Option.bind_eq_some_iff, fxMul_eq_some_iff h.b0, fxMac_eq_some_iff h.b1,
    fxMac_eq_some_iff h.b2, fxMsub_eq_some_iff h.a1, fxMsub_eq_some_iff h.a2, Option.some.injEq, Prod.mk.injEq]
  constructor
  · rintro ⟨s0, hs0, s1, ⟨hm1, hs1⟩, s2, ⟨hm2, hs2⟩, s3, ⟨hm3, hs3⟩, y', ⟨hm4, hy⟩, hg, rfl⟩
    rw [hs0] at hs1
    rw [hs1] at hs2
    rw [hs2] at hs3
    have hsum : y'.toInt = biquadSum m0 m1 m2 m3 m4 := by rw [hy, hs3]
    exact ⟨⟨hs0 ▸ inFx_toInt s0, hm1, hs1 ▸ inFx_toInt s1, hm2, hs2 ▸ inFx_toInt s2, hm3, hs3 ▸ inFx_toInt s3, hm4,
      hsum ▸ inFx_toInt y'⟩, hsum, hg⟩
  · rintro ⟨⟨⟨hlo0, hhi0⟩, hm1, ⟨hlo1, hhi1⟩, hm2, ⟨hlo2, hhi2⟩, hm3, ⟨hlo3, hhi3⟩, hm4, -⟩, hy, hg⟩
    obtain ⟨s0, -, hs0⟩ := exists_fxOfInt hlo0 hhi0
    obtain ⟨s1, -, hs1⟩ := exists_fxOfInt hlo1 hhi1
    obtain ⟨s2, -, hs2⟩ := exists_fxOfInt hlo2 hhi2
    obtain ⟨s3, -, hs3⟩ := exists_fxOfInt hlo3 hhi3
    rw [biquadSum, ← hs3] at hy
    rw [← hs2] at hs3
    rw [← hs1] at hs2
    rw [← hs0] at hs1
    exact ⟨s0, hs0, s1, ⟨hm1, hs1⟩, s2, ⟨hm2, hs2⟩, s3, ⟨hm3, hs3⟩, y, ⟨hm4, hy⟩, hg, rfl⟩

theorem biquadStep_of_inFx (h : BiquadProducts c f x m0 m1 m2 m3 m4) (hfits : BiquadInFx m0 m1 m2 m3 m4) :
    ∃ y : FX, y.toInt = biquadSum m0 m1 m2 m3 m4 ∧ biquadStep c f x = some ((f.pushX x).pushY y, y) := by
  have ⟨_, _, _, _, _, _, _, _, ⟨hlo, hhi⟩⟩ := hfits
  obtain ⟨y, -, hy⟩ := exists_fxOfInt hlo hhi
  exact ⟨y, hy, (biquadStep_eq_some_iff h _ y).2 ⟨hfits, hy, rfl⟩⟩

theorem biquadStep_of_not_inFx (h : BiquadProducts c f x m0 m1 m2 m3 m4) (hover : ¬ BiquadInFx m0 m1 m2 m3 m4) :
    biquadStep c f x = none := by
  rw [Option.eq_none_iff_forall_ne_some]
  rintro ⟨g, y⟩ hstep
  exact hover ((biquadStep_eq_some_iff h g y).1 hstep).1

end

/-- Settles O16: `biquadStep` answers exactly when every product and partial sum fits, and `BQCOMP` ends with its answer or its
overflow. -/
theorem bqcompComputesTheDifferenceEquation : Obligations.BqcompComputesTheDifferenceEquation := by
  intro x m0 m1 m2 m3 m4 s h0 h1 h2 h3 h4 fits
  have hprod : BiquadProducts s.cfg s.filt x m0 m1 m2 m3 m4 := ⟨h0, h1, h2, h3, h4⟩
  constructor
  · intro hfits
    obtain ⟨y, hy, hstep⟩ := biquadStep_of_inFx hprod hfits
    exact ⟨y, hy, exec_bqcomp_of_some hstep⟩
  · intro hover
    exact exec_bqcomp_of_none (biquadStep_of_not_inFx hprod hover)

end Sys2Proof.Machine
end

section
/-! SUPPORT. The sample and packing family (`43_pack_fill.md` R180 to R183): `Q15` on exact integers, the two channel fields of
a packed word, `SAMPLE` beside its four stages, and one buffer write; from that the four statements. -/
namespace Sys2Proof.Machine

open Sys2Proof

/-! ## Saturation to 16 bits (R180) -/

/-- The PCM16 value `Q15` gives for the floored half `v`, as an exact integer (R180). -/
abbrev saturate16 (v : Int) : Int := if v > 32767 then 32767 else if v < -32768 then -32768 else v

theorem saturate16_bounds (v : Int) : -32768 ≤ saturate16 v ∧ saturate16 v ≤ 32767 := by
  unfold saturate16
  split
  · omega
  · split <;> omega

theorem toInt_ofInt_saturate16 (v : Int) : (BitVec.ofInt 16 (saturate16 v)).toInt = saturate16 v := by
  obtain ⟨hlo, hhi⟩ := saturate16_bounds v
  rw [BitVec.toInt_ofInt]
  exact Int.bmod_eq_of_le (by omega) (by omega)

/-- `Q15` on values: the saturated half, and whether it saturated. -/
theorem q15_eq (y : FX) :
    q15 y = (BitVec.ofInt 16 (saturate16 (y.toInt / 2)), decide (y.toInt / 2 > 32767 ∨ y.toInt / 2 < -32768)) := by
  unfold q15 saturate16
  by_cases hhigh : y.toInt / 2 > 32767
  · simp [hhigh]
  · by_cases hlow : y.toInt / 2 < -32768
    · simp [hhigh, hlow]
    · simp [hhigh, hlow]

theorem exec_q15 (y : FX) (s : State) :
    exec (.q15 y) s = .next { s with status := s.status.withClip (q15 y).2, result := .pcm (q15 y).1 } := rfl

/-- Settles O18: the two inequalities determine the half `v`, and `q15_eq` gives its saturation and the flag. -/
theorem q15SaturatesWithStickyClip : Obligations.Q15SaturatesWithStickyClip := by
  intro y v s hlo hhi
  have hv : y.toInt / 2 = v := by omega
  have hq := q15_eq y
  rw [hv] at hq
  refine ⟨BitVec.ofInt 16 (saturate16 v), toInt_ofInt_saturate16 v, ?_⟩
  rw [exec_q15, hq]
  rfl

/-! ## The packed word (R94, R181) -/

theorem packWord_eq_append (m : MonoMode) (h : Pcm) : packWord m h = h ++ h := by
  cases m
  rfl

theorem toNat_packWord (m : MonoMode) (h : Pcm) : (packWord m h).toNat = h.toNat * 65536 + h.toNat := by
  rw [packWord_eq_append, BitVec.toNat_append, ← Nat.shiftLeft_add_eq_or_of_lt h.isLt, Nat.shiftLeft_eq]

@[simp] theorem channelA_packWord (m : MonoMode) (h : Pcm) : channelA (packWord m h) = h := by
  apply BitVec.eq_of_toNat_eq
  have hhigh : (h.toNat * 65536 + h.toNat) / 2 ^ 16 = h.toNat := by omega
  rw [channelA, BitVec.extractLsb'_toNat, toNat_packWord, Nat.shiftRight_eq_div_pow, hhigh, Nat.mod_eq_of_lt h.isLt]

@[simp] theorem channelB_packWord (m : MonoMode) (h : Pcm) : channelB (packWord m h) = h := by
  apply BitVec.eq_of_toNat_eq
  rw [channelB, BitVec.extractLsb'_toNat, toNat_packWord, Nat.shiftRight_zero]
  omega

theorem exec_pack (y : FX) (s : State) :
    exec (.pack y) s = .next { s with
      status := s.status.withClip (q15 y).2, result := .word (packWord s.cfg.monoMode (q15 y).1) } := rfl

/-- Settles O19: `Q15` and `PACK` end with the same `STATUS`, and the word packs the sample of `Q15`. -/
theorem packDuplicatesTheSample : Obligations.PackDuplicatesTheSample := by
  intro y s
  exact ⟨(q15 y).1, packWord s.cfg.monoMode (q15 y).1, s.status.withClip (q15 y).2, exec_q15 y s, exec_pack y s,
    toNat_packWord _ _, channelA_packWord _ _, channelB_packWord _ _⟩

/-! ## `SAMPLE` (R182) -/

theorem exec_sample_of_ok {s t : State} {y : FX} (h : s.nextSample = .ok (y, t)) :
    exec .sample s = .next { t with result := .fx y } := by
  change execSample s = _
  rw [execSample, h]
  rfl

theorem exec_sample_of_error {s : State} {e : Raise} (h : s.nextSample = .error e) :
    exec .sample s = .next (s.takeFault e) := by
  change execSample s = _
  rw [execSample, h]
  rfl

/-- The state after `RNGNEXT` and `WHITE` of its word: the first two stages of `SAMPLE`, which never fault. -/
def State.afterWhite (s : State) : State :=
  { s with rngState := (rngNext s.rngState).1, result := .fx (whiteSample (rngNext s.rngState).2) }

theorem exec_white_after_rngnext (s : State) :
    exec (.white (rngNext s.rngState).2)
        { s with rngState := (rngNext s.rngState).1, result := .word (rngNext s.rngState).2 } =
      .next s.afterWhite := exec_white _ _

/-- How `SAMPLE`, issued in `s`, ends when its `BROWN` ended in `s3` (R182): with what `BQCOMP` gives there, or with the
overflow of `BROWN` or of `BQCOMP` taken in `s`. -/
abbrev SampleEndsAfterBrown (s s3 : State) : Prop :=
  (∃ (o y : FX) (s4 : State), s3.result = .fx o ∧ exec (.bqcomp o) s3 = .next s4 ∧ s4.result = .fx y ∧
    exec .sample s = .next s4) ∨
  (s3.result = .fault .arithOverflow ∧ exec .sample s = .next (s.takeFault ⟨.arithOverflow, .brown⟩)) ∨
  (∃ (o : FX) (s4 : State), s3.result = .fx o ∧ exec (.bqcomp o) s3 = .next s4 ∧
    s4.result = .fault .arithOverflow ∧ exec .sample s = .next (s.takeFault ⟨.arithOverflow, .bqcomp⟩))

/-- The last two stages: each case of `nextSample_eq` decides `BROWN` and `BQCOMP` as well as `SAMPLE`. -/
theorem exists_brown_sampleEndsAfterBrown (s : State) :
    ∃ s3, exec (.brown (whiteSample (rngNext s.rngState).2)) s.afterWhite = .next s3 ∧ SampleEndsAfterBrown s s3 := by
  rcases nextSample_eq s with ⟨n, o, f, y, hbrown, hbiquad, hsample⟩ | ⟨hbrown, hsample⟩ |
    ⟨n, o, hbrown, hbiquad, hsample⟩
  case inl =>
    have hbqcomp := exec_bqcomp_of_some (s := { s.afterWhite with noiseState := n, result := .fx o }) hbiquad
    exact ⟨_, exec_brown_of_some hbrown, .inl ⟨o, y, _, rfl, hbqcomp, rfl, exec_sample_of_ok hsample⟩⟩
  case inr.inl =>
    exact ⟨_, exec_brown_of_none hbrown, .inr (.inl ⟨rfl, exec_sample_of_error hsample⟩)⟩
  case inr.inr =>
    have hbqcomp := exec_bqcomp_of_none (s := { s.afterWhite with noiseState := n, result := .fx o }) hbiquad
    exact ⟨_, exec_brown_of_some hbrown, .inr (.inr ⟨o, _, rfl, hbqcomp, rfl, exec_sample_of_error hsample⟩)⟩

/-- Settles O20: `RNGNEXT` and `WHITE` always complete; `exists_brown_sampleEndsAfterBrown` has the other two stages. -/
theorem sampleIsTheFourStages : Obligations.SampleIsTheFourStages := by
  intro s
  obtain ⟨s3, hbrown, hend⟩ := exists_brown_sampleEndsAfterBrown s
  exact ⟨_, s.afterWhite, s3, _, _, exec_rngnext s, rfl, exec_white_after_rngnext s, rfl, hbrown, hend⟩

/-! ## `BUFWR` (R61, R66, R183) -/

theorem exec_bufwr_of_lt {b : BufId} {i : Nat} {v : Word} {s : State} (hi : i < s.cfg.bufWords) :
    exec (.bufwr b i v) s = conclude s ((s.memWrite b i v).map fun t => (.unit, t)) := if_pos hi

theorem memWrite_of_producer {b : BufId} {s : State} (hb : s.owner.get b = .P) (i : Nat) (v : Word) :
    s.memWrite b i v = .ok { s with buf := s.buf.set b ((s.buf.get b).write i v) } := by
  rcases memWrite_eq s b i v with ⟨howner, -⟩ | ⟨-, hwrite⟩
  · rw [hb] at howner
    cases howner
  · exact hwrite

theorem memWrite_of_engine {b : BufId} {s : State} (hb : s.owner.get b = .E) (i : Nat) (v : Word) :
    s.memWrite b i v = .error ⟨.ownershipViolation, .bufwr⟩ := by
  rcases memWrite_eq s b i v with ⟨-, hfault⟩ | ⟨howner, -⟩
  · exact hfault
  · rw [hb] at howner
    cases howner

/-- Settles O22: the owner decides between the two ends of `MemWrite`; `memRead_memWrite` says what every word reads as
after it. -/
theorem bufwrWritesOneWord : Obligations.BufwrWritesOneWord := by
  intro b i v s hi
  rw [exec_bufwr_of_lt hi]
  constructor
  · intro hb
    have hwrite := memWrite_of_producer hb i v
    have hread := memRead_memWrite hwrite
    refine ⟨_, by rw [hwrite]; rfl, ?_, fun c j hother => ?_⟩
    · rw [hread, if_pos ⟨rfl, rfl⟩]
    · rw [hread, if_neg hother]
  · intro hb
    rw [memWrite_of_engine hb]
    rfl

end Sys2Proof.Machine
end

section
/-! SUPPORT. The transfer engine's family (`44_transfer_engine.md` R201 to R203, R208): which slots `KICK` starts, what moving a
word does to both slots, and from that the four statements. -/
namespace Sys2Proof.Machine

open Sys2Proof

/-! ## `KICK` (R201) -/

theorem Slot.armed_iff (v : Slot) : v.armed = true ↔ v.st = .idle ∧ v.buf ≠ none := by
  simp [Slot.armed, Option.isSome_iff_ne_none]

theorem Slot.not_armed_of_done {v : Slot} (h : v.st = .done) : ¬ v.armed = true := by
  simp [Slot.armed_iff, h]

theorem kickSlots_of_running (head : Fin 2) {sl : Two Slot} {k : Fin 2} (h : (sl.get k).st = .running) :
    kickSlots head sl = sl := by
  refine if_neg fun ⟨h0, h1⟩ => ?_
  match k with
  | 0 => exact h0 h
  | 1 => exact h1 h

/-- With nothing running, the oldest slot is started if it is armed, and the other one if the oldest is not. -/
theorem kickSlots_get {sl : Two Slot} (hrest : ∀ k, (sl.get k).st ≠ .running) (head k : Fin 2) :
    (kickSlots head sl).get k =
      if (sl.get k).armed = true ∧ (k = head ∨ ¬ (sl.get head).armed = true) then ⟨.running, (sl.get k).buf, 0⟩
      else sl.get k := by
  rcases kickSlots_eq head sl with ⟨hrun, -⟩ | ⟨-, -, hhead, hkick⟩ | ⟨-, -, hhead, hother, hkick⟩ |
    ⟨-, -, hhead, hother, hkick⟩
  case inl => exact absurd hrun (not_or.2 ⟨hrest 0, hrest 1⟩)
  case inr.inl =>
    rw [hkick, Two.get_set]
    by_cases hk : k = head
    · simp [hk, hhead]
    · simp [hk, hhead]
  case inr.inr.inl =>
    rw [hkick]
    rcases eq_or_eq_other head k with rfl | rfl
    · simp [hhead, Two.get_set_of_ne _ _ (other_ne k).symm]
    · simp [hhead, hother]
  case inr.inr.inr =>
    rw [hkick]
    rcases eq_or_eq_other head k with rfl | rfl
    · simp [hhead]
    · simp [hother]

theorem exec_kick (s : State) :
    exec .kick s = .next { s with slot := kickSlots s.head s.slot, result := .unit } := rfl

/-- Settles O35: `kickSlots_get`, with an armed slot said by its two fields. -/
theorem kickStartsTheOldestArmed : Obligations.KickStartsTheOldestArmed := by
  intro s
  refine ⟨kickSlots s.head s.slot, exec_kick s, fun ⟨k, hrun⟩ => kickSlots_of_running s.head hrun, fun hrest k => ?_⟩
  simpa only [Slot.armed_iff, and_assoc] using kickSlots_get hrest s.head k

/-! ## `DXFER` (R208) -/

theorem runningSlot_eq_some {s : State} {k : Fin 2} (hrun : (s.slot.get k).st = .running)
    (hother : (s.slot.get (1 - k)).st ≠ .running) : s.runningSlot = some k := by
  rcases eq_or_eq_other k s.head with hhead | hhead
  · rw [State.runningSlot, hhead, if_pos hrun]
  · rw [State.runningSlot, hhead, if_neg hother, other_other, if_pos hrun]

theorem exec_dxfer_of_running {s : State} {k : Fin 2} {b : BufId} (hrun : s.runningSlot = some k)
    (hbuf : (s.slot.get k).buf = some b) (hidx : (s.slot.get k).idx < s.cfg.bufWords)
    (hroom : s.fifo.length < s.cfg.fifoDepth) :
    exec .dxfer s = .next { s with
      fifo := s.fifo ++ [s.memRead b (s.slot.get k).idx], slot := s.advanceSlots k, result := .unit } := by
  change execDxfer s = _
  simp only [execDxfer, hrun, hbuf, if_pos hroom, if_pos hidx]
  rfl

/-- `KICK` right after slot `k` is done starts the other slot if it is armed, whichever of the two is the oldest. -/
theorem kickSlots_after_done (head : Fin 2) {sl : Two Slot} {k : Fin 2} (hdone : (sl.get k).st = .done)
    (hother : (sl.get (1 - k)).st ≠ .running) :
    (kickSlots head sl).get k = sl.get k ∧
    (kickSlots head sl).get (1 - k) =
      if (sl.get (1 - k)).armed = true then ⟨.running, (sl.get (1 - k)).buf, 0⟩ else sl.get (1 - k) := by
  have hrest : ∀ j, (sl.get j).st ≠ .running := fun j => by
    rcases eq_or_eq_other k j with rfl | rfl
    · simp [hdone]
    · exact hother
  have hk := Slot.not_armed_of_done hdone
  have hturn : 1 - k = head ∨ ¬ (sl.get head).armed = true := by
    rcases eq_or_eq_other k head with rfl | rfl
    · exact .inr hk
    · exact .inl rfl
  rw [kickSlots_get hrest, kickSlots_get hrest]
  exact ⟨if_neg fun h => hk h.1, by simp only [hturn, and_true]⟩

theorem advanceSlots_of_last {s : State} {k : Fin 2} (hlast : (s.slot.get k).idx + 1 = s.cfg.bufWords) :
    s.advanceSlots k =
      kickSlots s.head (s.slot.set k ⟨.done, (s.slot.get k).buf, (s.slot.get k).idx + 1⟩) := if_pos hlast

theorem advanceSlots_of_not_last {s : State} {k : Fin 2} (hmore : (s.slot.get k).idx + 1 ≠ s.cfg.bufWords) :
    s.advanceSlots k =
      s.slot.set k ⟨(s.slot.get k).st, (s.slot.get k).buf, (s.slot.get k).idx + 1⟩ := if_neg hmore

/-- The slot that moved a word (R208). -/
theorem advanceSlots_get_same {s : State} {k : Fin 2} (hrun : (s.slot.get k).st = .running)
    (hother : (s.slot.get (1 - k)).st ≠ .running) :
    (s.advanceSlots k).get k =
      ⟨if (s.slot.get k).idx + 1 = s.cfg.bufWords then .done else .running, (s.slot.get k).buf,
        (s.slot.get k).idx + 1⟩ := by
  by_cases hlast : (s.slot.get k).idx + 1 = s.cfg.bufWords
  · rw [advanceSlots_of_last hlast, (kickSlots_after_done _ (by simp) (by simpa)).1, Two.get_set_same, if_pos hlast]
  · rw [advanceSlots_of_not_last hlast, Two.get_set_same, if_neg hlast, hrun]

/-- The slot beside the one that moved a word: started when it is armed and the word was the last (R208). -/
theorem advanceSlots_get_other {s : State} {k : Fin 2} (hother : (s.slot.get (1 - k)).st ≠ .running) :
    (s.advanceSlots k).get (1 - k) =
      if (s.slot.get k).idx + 1 = s.cfg.bufWords ∧ (s.slot.get (1 - k)).armed = true
      then ⟨.running, (s.slot.get (1 - k)).buf, 0⟩ else s.slot.get (1 - k) := by
  by_cases hlast : (s.slot.get k).idx + 1 = s.cfg.bufWords
  · rw [advanceSlots_of_last hlast, (kickSlots_after_done _ (by simp) (by simpa)).2]
    simp only [Two.get_set_other, hlast, true_and]
  · rw [advanceSlots_of_not_last hlast, Two.get_set_other, if_neg fun h => hlast h.1]

/-- Settles O33: the word goes out by `exec_dxfer_of_running`, and `advanceSlots` says what becomes of the two slots. -/
theorem dxferMovesOneWord : Obligations.DxferMovesOneWord := by
  intro k b s hrun hother hbuf hidx hroom
  refine ⟨s.advanceSlots k, exec_dxfer_of_running (runningSlot_eq_some hrun hother) hbuf hidx hroom, ?_, ?_⟩
  · rw [advanceSlots_get_same hrun hother, hbuf]
  · simpa only [Slot.armed_iff] using advanceSlots_get_other hother

/-! ## `DSTART` and `DISDONE` (R202, R203) -/

theorem exec_dstart (b : BufId) (s : State) :
    exec (.dstart b) s = conclude s ((s.startTransfer b).map fun t => (.unit, t)) := rfl

/-- Settles O27: the three cases of `startTransfer_eq` are the three clauses. -/
theorem dstartStartsTheTransfer : Obligations.DstartStartsTheTransfer := by
  intro b s
  rw [exec_dstart]
  rcases startTransfer_eq s b with ⟨hcnt, hstart⟩ | ⟨hcnt, howner, hstart⟩ | ⟨hcnt, howner, hstart⟩
  · exact ⟨fun _ => by rw [hstart]; rfl, fun h => absurd h.1 hcnt, fun h => absurd h.1 hcnt⟩
  · exact ⟨fun h => absurd hcnt h, fun _ => by rw [hstart]; rfl, fun ⟨_, hp⟩ => by simp [howner] at hp⟩
  · exact ⟨fun h => absurd hcnt h, fun ⟨_, he⟩ => by simp [howner] at he, fun _ => by rw [hstart]; rfl⟩

theorem State.isDone_iff (s : State) : s.isDone = true ↔ 1 ≤ s.cnt.val ∧ (s.slot.get s.head).st = .done := by
  simp [State.isDone, Nat.one_le_iff_ne_zero, Fin.val_eq_zero_iff]

theorem exec_disdone (s : State) : exec .disdone s = .next { s with result := .flag s.isDone } := rfl

/-- Settles O28. -/
theorem disdoneAnswersForTheOldest : Obligations.DisdoneAnswersForTheOldest :=
  fun s => ⟨s.isDone, exec_disdone s, s.isDone_iff⟩

end Sys2Proof.Machine
end

section
/-! SUPPORT. The scheduler's family (`45_scheduler.md` R230, R231, R238): when `SCHSTEP` is enabled, the fill step beside its
three operations, the scheduler registers after it, and from that the two statements. -/
namespace Sys2Proof.Machine

open Sys2Proof

/-! ## The step (R230) -/

theorem exec_schstep (s : State) : exec .schstep s = execSchstep s := rfl

/-- Of the ten states only PRIME_WAIT can hold an unfaulted PRODUCER. -/
theorem producerEnabled_of_ne_primeWait {s : State} (hfault : s.status.fault = 0) (hsch : s.sched.sch ≠ .primeWait) :
    s.producerEnabled = true := by
  simp [State.producerEnabled, hfault, hsch]

/-! ## RUN_POLL (R238) -/

theorem exec_schstep_runPoll {s : State} (hfault : s.status.fault = 0) (hsch : s.sched.sch = .runPoll) :
    exec .schstep s = schPoll s := by
  have henabled : s.producerEnabled = true := producerEnabled_of_ne_primeWait hfault (by simp [hsch])
  simp only [exec_schstep, execSchstep, henabled, hsch, if_true]

/-- A poll writes `SCH` only, and that only when the oldest transfer is done. -/
theorem schPoll_eq {s : State} (hsch : s.sched.sch = .runPoll) :
    schPoll s = .next { s with
      sched := { s.sched with sch := if s.isDone = true then .runFill else .runPoll }, result := .unit } := by
  by_cases hdone : s.isDone = true
  · simp only [schPoll, if_pos hdone]
    rfl
  · simp only [schPoll, if_neg hdone, ← hsch]
    rfl

/-- Settles O41: a poll asks `State.isDone`, which `State.isDone_iff` reads as R203 does. -/
theorem schstepPolls : Obligations.SchstepPolls := by
  intro s hfault hsch
  rw [exec_schstep_runPoll hfault hsch, schPoll_eq hsch]
  simp only [State.isDone_iff]

/-! ## The fill step beside `SAMPLE`, `PACK`, `BUFWR` (R184, R231) -/

/-- How `SAMPLE` ends: with a sample, or with its fault taken in the state before it. -/
theorem exec_sample_eq (s : State) :
    (∃ y t, s.nextSample = .ok (y, t) ∧ exec .sample s = .next { t with result := .fx y }) ∨
    (∃ e, s.nextSample = .error e ∧ exec .sample s = .next (s.takeFault e)) := by
  rcases hsample : s.nextSample with e | ⟨y, t⟩
  · exact .inr ⟨e, rfl, exec_sample_of_error hsample⟩
  · exact .inl ⟨y, t, rfl, exec_sample_of_ok hsample⟩

theorem nextSample_of_exec_sample_fault {s t : State} {c : Cause} (h : exec .sample s = .next t)
    (hc : t.result = .fault c) : ∃ e, s.nextSample = .error e ∧ t = s.takeFault e := by
  rcases exec_sample_eq s with ⟨y, u, -, hexec⟩ | ⟨e, herr, hexec⟩
  · rw [hexec] at h
    cases h
    cases hc
  · rw [hexec] at h
    cases h
    exact ⟨e, herr, rfl⟩

theorem nextSample_of_exec_sample_fx {s t : State} {y : FX} (h : exec .sample s = .next t)
    (hy : t.result = .fx y) : ∃ u, s.nextSample = .ok (y, u) := by
  rcases exec_sample_eq s with ⟨y', u, hok, hexec⟩ | ⟨e, -, hexec⟩
  · rw [hexec] at h
    cases h
    cases hy
    exact ⟨u, hok⟩
  · rw [hexec] at h
    cases h
    cases hy

theorem fillWord_of_sample {s t : State} {y : FX} (h : s.nextSample = .ok (y, t)) (b : BufId) (i : Nat) :
    s.fillWord b i = (t.noteClip y).memWrite b i (packWord s.cfg.monoMode (q15 y).1) := by
  rw [State.fillWord, h]
  rfl

theorem fillWord_of_sample_error {s : State} {e : Raise} (h : s.nextSample = .error e) (b : BufId) (i : Nat) :
    s.fillWord b i = .error e := by
  rw [State.fillWord, h]
  rfl

/-- With the buffer at the engine a fill step whose sample completes ends in `BUFWR`'s fault. -/
theorem fillWord_of_engine {s t : State} {b : BufId} {y : FX} (hb : s.owner.get b = .E)
    (h : s.nextSample = .ok (y, t)) (i : Nat) : s.fillWord b i = .error ⟨.ownershipViolation, .bufwr⟩ := by
  have howner : (t.noteClip y).owner = s.owner := by
    rw [nextSample_frame h]
    rfl
  rw [fillWord_of_sample h, memWrite_of_engine (by rw [howner, hb])]

/-- A fill step writes the pipeline state, the buffers and `STATUS`, nothing else. -/
theorem fillWord_frame {s u : State} {b : BufId} {i : Nat} (h : s.fillWord b i = .ok u) :
    u = { s with
      rngState := u.rngState, noiseState := u.noiseState, filt := u.filt, buf := u.buf, status := u.status } := by
  rcases fillWord_eq s b i with ⟨y, t, hsample, -, hword⟩ | ⟨y, t, -, -, hword⟩ | ⟨e, -, hword⟩
  · rw [hword] at h
    cases h
    rw [nextSample_frame hsample]
  · rw [hword] at h
    cases h
  · rw [hword] at h
    cases h

theorem memWrite_ret (s : State) (r : OpResult) (b : BufId) (i : Nat) (v : Word) :
    (s.ret r).memWrite b i v = (s.memWrite b i v).map (·.ret r) := by
  rcases memWrite_eq s b i v with ⟨howner, hfault⟩ | ⟨howner, hwrite⟩
  · rw [hfault, memWrite_of_engine (by simpa using howner)]
    rfl
  · rw [hwrite, memWrite_of_producer (by simpa using howner)]
    rfl

/-- What follows a completed sample, operation by operation, is what the fill step does with it. -/
theorem exec_bufwr_after_pack {s t : State} {y : FX} (h : s.nextSample = .ok (y, t)) {b : BufId} {i : Nat}
    (hi : i < s.cfg.bufWords) (r : OpResult) :
    exec (.bufwr b i (packWord s.cfg.monoMode (q15 y).1)) ((t.noteClip y).ret r) =
      conclude ((t.noteClip y).ret r) ((s.fillWord b i).map fun u => (.unit, u.ret r)) := by
  have hcfg : t.cfg = s.cfg := by rw [nextSample_frame h]
  rw [exec_bufwr_of_lt (by simpa [hcfg] using hi), memWrite_ret, ← fillWord_of_sample h]
  cases s.fillWord b i <;> rfl

/-- One more fill step by hand completes exactly when `State.fillWord` does, and leaves its state. -/
theorem fillByHand_succ {b : BufId} {i : Nat} {s : State} (hi : i < s.cfg.bufWords) (n : Nat) :
    fillByHand b (n + 1) i s =
      (s.fillWord b i).toOption.bind fun u => fillByHand b n (i + 1) (u.ret .unit) := by
  rcases exec_sample_eq s with ⟨y, t, hsample, hexec⟩ | ⟨e, hsample, hexec⟩
  · have hcfg : t.cfg = s.cfg := by rw [nextSample_frame hsample]
    have hpack : exec (.pack y) { t with result := .fx y } =
        .next ((t.noteClip y).ret (.word (packWord s.cfg.monoMode (q15 y).1))) := by
      rw [exec_pack, ← hcfg]
      rfl
    have hbufwr := exec_bufwr_after_pack hsample hi (b := b) (.word (packWord s.cfg.monoMode (q15 y).1))
    simp only [fillByHand, hexec, hpack, State.ret_result, hbufwr]
    cases s.fillWord b i <;> rfl
  · rw [fillWord_of_sample_error hsample]
    simp only [fillByHand, hexec, State.takeFault_result]
    rfl

theorem fillWord_of_fillByHand_one {b : BufId} {i : Nat} {s t : State} (hi : i < s.cfg.bufWords)
    (h : fillByHand b 1 i s = some t) : ∃ u, s.fillWord b i = .ok u ∧ t = u.ret .unit := by
  rw [fillByHand_succ hi] at h
  rcases hword : s.fillWord b i with e | u
  · rw [hword] at h
    cases h
  · rw [hword] at h
    cases h
    exact ⟨u, rfl, rfl⟩

/-! ## The fill states (R231, R233, R235, R239) -/

/-- In each of the four fill states `SCHSTEP` is one fill step, followed by the bookkeeping of `FILL_I` and `SCH`. -/
theorem exec_schstep_of_fillState {b : BufId} {n : Sch} {s : State} (hfill : fillStateOf s = some (b, n))
    (hfault : s.status.fault = 0) (hi : s.sched.fillI < s.cfg.bufWords) :
    exec .schstep s = conclude s ((s.fillWord b s.sched.fillI).map fun t => (.unit, t.advanceFill n)) := by
  have hstep : exec .schstep s = schFill (some b) n s := by
    have henabled := producerEnabled_of_ne_primeWait hfault fun hwait => by simp [fillStateOf, hwait] at hfill
    rw [exec_schstep, execSchstep, if_pos henabled]
    cases hsch : s.sched.sch <;> simp only [fillStateOf, hsch, reduceCtorEq, Option.some.injEq, Prod.mk.injEq] at hfill
    case primeFill0 | primeFill1 | primeFill2 =>
      obtain ⟨rfl, rfl⟩ := hfill
      rfl
    case runFill =>
      simp only [Option.map_eq_some_iff, Prod.mk.injEq] at hfill
      obtain ⟨_, hfree, rfl, rfl⟩ := hfill
      rw [hfree]
  rw [hstep, schFill, if_pos hi]

/-- The bookkeeping after a completed fill step, on the scheduler registers from before it. -/
theorem advanceFill_of_fillWord {s u : State} {b : BufId} {i : Nat} (h : s.fillWord b i = .ok u) (n : Sch) :
    u.advanceFill n =
      if s.sched.fillI + 1 = s.cfg.bufWords then
        { u with sched := ⟨n, 0, s.sched.free⟩, genCount := s.genCount + 1 }
      else { u with sched := { s.sched with fillI := s.sched.fillI + 1 } } := by
  rw [fillWord_frame h]
  rfl

/-- Settles O39: `SCHSTEP` concludes `State.fillWord`, which the operations done by hand decide in each of the three clauses. -/
theorem schstepFillsOneWord : Obligations.SchstepFillsOneWord := by
  intro b n s hfill hfault hi
  rw [exec_schstep_of_fillState hfill hfault hi]
  refine ⟨fun t hhand => ?_, fun t c hsample hc => ?_, fun howner t y hsample hy => ?_⟩
  · obtain ⟨u, hword, rfl⟩ := fillWord_of_fillByHand_one hi hhand
    rw [hword, Except.map, conclude_ok, advanceFill_of_fillWord hword]
    split <;> rfl
  · obtain ⟨e, herr, rfl⟩ := nextSample_of_exec_sample_fault hsample hc
    rw [fillWord_of_sample_error herr]
    rfl
  · obtain ⟨u, hok⟩ := nextSample_of_exec_sample_fx hsample hy
    rw [fillWord_of_engine howner hok]
    rfl

end Sys2Proof.Machine
end

section
/-! SUPPORT. The sequencer family (`46_sequencer.md` R257): the divisor word of `DIVCALC` in terms of the rounded quotient
`raw`, given by its inequalities, and from that the operation's two answers. -/
namespace Sys2Proof.Machine

open Sys2Proof

/-! ## The divisor word on values (R96, R257) -/

/-- `raw` is the floor of `(512·base + den)/(2·den)` with `den = cyclesPerBit·bclk` (R257): 256·base/den to nearest, ties up. -/
structure IsDivisor (p q k : ℕ+) (raw : Nat) : Prop where
  lower : 2 * ((q : Nat) * k) * raw ≤ 512 * (p : Nat) + (q : Nat) * k
  upper : 512 * (p : Nat) + (q : Nat) * k < 2 * ((q : Nat) * k) * (raw + 1)

/-- The two inequalities leave one quotient, the one the model computes. -/
theorem IsDivisor.div_eq {p q k : ℕ+} {raw : Nat} (h : IsDivisor p q k raw) :
    (2 * 256 * (p : Nat) + (q : Nat) * k) / (2 * ((q : Nat) * k)) = raw :=
  Nat.div_eq_of_lt_le ((Nat.mul_comm ..).trans_le h.lower) (h.upper.trans_eq (Nat.mul_comm ..))

theorem divCalc_of_isDivisor {p q k : ℕ+} {raw : Nat} (h : IsDivisor p q k raw) :
    divCalc p q k = if raw / 256 = 0 ∨ raw / 256 > 65535 then none
      else some (BitVec.ofNat 32 (raw / 256 * 65536 + raw % 256 * 256)) := by
  simp only [divCalc, h.div_eq]

/-- A quotient whose integer part fits 16 bits packs into the word with nothing cut off (R96). -/
theorem toNat_clkdivWord {raw : Nat} (h : raw / 256 ≤ 65535) :
    (BitVec.ofNat 32 (raw / 256 * 65536 + raw % 256 * 256)).toNat = raw / 256 * 65536 + raw % 256 * 256 := by
  have hfrac : raw % 256 < 256 := Nat.mod_lt _ (by decide)
  rw [BitVec.toNat_ofNat, Nat.mod_eq_of_lt (by omega)]

/-! ## The operation -/

theorem exec_divcalc_of_some {p q k : ℕ+} {w : Word} (h : divCalc p q k = some w) (s : State) :
    exec (.divcalc p q k) s = .next { s with result := .word w } := by
  change execDivcalc p q k s = _
  rw [execDivcalc, h]
  rfl

theorem exec_divcalc_of_none {p q k : ℕ+} (h : divCalc p q k = none) (s : State) :
    exec (.divcalc p q k) s = .next (s.takeFault ⟨.configReserved, .divcalc⟩) := by
  change execDivcalc p q k s = _
  rw [execDivcalc, h]

/-- Settles O46: the inequalities fix the quotient, and the range of its integer part decides between the packed word and the
fault. -/
theorem divcalcRoundsToNearest : Obligations.DivcalcRoundsToNearest := by
  intro p q k raw s den hlower hupper
  have hdiv := divCalc_of_isDivisor ⟨hlower, hupper⟩
  refine ⟨fun ⟨hmin, hmax⟩ => ⟨_, toNat_clkdivWord hmax, ?_⟩, fun hout => ?_⟩
  · rw [if_neg (by omega)] at hdiv
    exact exec_divcalc_of_some hdiv s
  · rw [if_pos hout] at hdiv
    exact exec_divcalc_of_none hdiv s

end Sys2Proof.Machine
end

section
/-! SUPPORT. The operation stream (`30_encoding.md` R98 to R102, log 1, 2): for each reader of the decoder the one stream it reads
a value from, and from that the two round trips, the refusals, and the step of a stream's operation. -/
namespace Sys2Proof

/-! ## Numbers in bytes -/

theorem toNat_byte (v : Nat) : (BitVec.ofNat 8 v).toNat = v % 256 := BitVec.toNat_ofNat v 8

theorem byte_of_add_mul (c : Byte) (v : Nat) : BitVec.ofNat 8 (c.toNat + 256 * v) = c := by
  apply BitVec.eq_of_toNat_eq
  rw [toNat_byte, Nat.add_mul_mod_self_left, Nat.mod_eq_of_lt c.isLt]

/-- `readLE` reads a number exactly from the number written in `n` bytes, and a number that fits them. -/
theorem readLE_eq_ok_iff (n : Nat) (bs rest : List Byte) (v : Nat) :
    readLE n bs = .ok (v, rest) ↔ bs = writeLE n v ++ rest ∧ v < 256 ^ n := by
  induction n generalizing bs v with
  | zero =>
    simp only [readLE, writeLE, Except.ok.injEq, Prod.mk.injEq, List.nil_append, pow_zero, Nat.lt_one_iff]
    constructor
    · rintro ⟨rfl, rfl⟩
      exact ⟨rfl, rfl⟩
    · rintro ⟨rfl, rfl⟩
      exact ⟨rfl, rfl⟩
  | succ n ih =>
    rw [writeLE, List.cons_append, Nat.pow_succ]
    constructor
    · intro h
      match bs with
      | [] => cases h
      | c :: cs =>
        rw [readLE] at h
        rcases hread : readLE n cs with e | ⟨w, r⟩
        · rw [hread] at h
          cases h
        · rw [hread] at h
          cases h
          obtain ⟨hcs, hw⟩ := (ih cs w).1 hread
          have hc := c.isLt
          have hdiv : (c.toNat + 256 * w) / 256 = w := by omega
          rw [byte_of_add_mul, hdiv, ← hcs]
          exact ⟨rfl, by omega⟩
    · rintro ⟨rfl, hv⟩
      have hread := (ih (writeLE n (v / 256) ++ rest) (v / 256)).2 ⟨rfl, by omega⟩
      have hsum : v % 256 + 256 * (v / 256) = v := Nat.mod_add_div v 256
      simp only [readLE, hread, toNat_byte, hsum]

/-! ## Operands -/

/-- A bit-vector operand of `n` bytes, read as its number. -/
theorem map_ofNat_readLE_eq_ok_iff {n w : Nat} (hw : 256 ^ n = 2 ^ w) (bs rest : List Byte) (x : BitVec w) :
    (∃ v, readLE n bs = .ok (v, rest) ∧ BitVec.ofNat w v = x) ↔ bs = writeLE n x.toNat ++ rest := by
  simp only [readLE_eq_ok_iff, hw]
  constructor
  · rintro ⟨v, ⟨rfl, hv⟩, rfl⟩
    rw [BitVec.toNat_ofNat, Nat.mod_eq_of_lt hv]
  · rintro rfl
    exact ⟨x.toNat, ⟨rfl, x.isLt⟩, by rw [BitVec.ofNat_toNat, BitVec.setWidth_eq]⟩

theorem readWord_eq_ok_iff (bs rest : List Byte) (w : Word) :
    readWord bs = .ok (w, rest) ↔ bs = writeLE 4 w.toNat ++ rest := by
  rw [← map_ofNat_readLE_eq_ok_iff (by decide), readWord]
  rcases readLE 4 bs with e | ⟨v, r⟩ <;> simp [and_comm, eq_comm]

theorem readSeed_eq_ok_iff (bs rest : List Byte) (v : BitVec 64) :
    readSeed bs = .ok (v, rest) ↔ bs = writeLE 8 v.toNat ++ rest := by
  rw [← map_ofNat_readLE_eq_ok_iff (by decide), readSeed]
  rcases readLE 8 bs with e | ⟨v, r⟩ <;> simp [and_comm, eq_comm]

/-- A positive operand is read from its value less one, which fits eight bytes exactly when the value is at most 2^64. -/
theorem readPos_eq_ok_iff (bs rest : List Byte) (p : ℕ+) :
    readPos bs = .ok (p, rest) ↔ bs = writeLE 8 (p - 1 : Nat) ++ rest ∧ (p : Nat) ≤ 2 ^ 64 := by
  have hpos : ∀ v : Nat, Nat.succPNat v = p ↔ v = (p : Nat) - 1 := fun v => by
    rw [← PNat.coe_inj, Nat.succPNat_coe]
    have := p.pos
    omega
  have hle : (p : Nat) ≤ 2 ^ 64 ↔ (p : Nat) - 1 < 256 ^ 8 := by
    have := p.pos
    omega
  rw [hle, ← readLE_eq_ok_iff, readPos]
  rcases readLE 8 bs with e | ⟨v, r⟩
  · simp
  · simp [hpos]

theorem readBuf_eq_ok_iff (bs rest : List Byte) (b : BufId) :
    readBuf bs = .ok (b, rest) ↔ bs = writeLE 1 b.val ++ rest := by
  have hbyte : ∀ c : Byte, c.toNat = b.val ↔ c = BitVec.ofNat 8 b.val := fun c => by
    rw [← BitVec.toNat_inj, toNat_byte, Nat.mod_eq_of_lt (by omega)]
  match bs with
  | [] => simp [readBuf, writeLE]
  | c :: cs =>
    simp only [writeLE, List.cons_append, List.nil_append, List.cons.injEq, ← hbyte]
    by_cases hc : c.toNat < 3
    · simp [readBuf, hc, Fin.ext_iff]
    · have hne : c.toNat ≠ b.val := by omega
      simp [readBuf, hc, hne]

/-! ## Operations -/

theorem Except.bind_eq_ok_iff {ε α β : Type} (x : Except ε α) (f : α → Except ε β) (b : β) :
    (x >>= f) = .ok b ↔ ∃ a, x = .ok a ∧ f a = .ok b := by
  cases x <;> simp [bind, Except.bind]

/-- The operands' readers give an operation back from its operand bytes, when its operands fit their fields. -/
theorem decodeOperands_encodeOperands (i : Instr) (rest : List Byte) (hfit : i.encodable = true) :
    decodeOperands (encodeOperands i ++ rest) i.opId = .ok (i, rest) := by
  cases i <;>
    simp only [Instr.opId, decodeOperands, encodeOperands, List.append_assoc, Except.bind_eq_ok_iff, Prod.exists,
      readWord_eq_ok_iff, readSeed_eq_ok_iff, readPos_eq_ok_iff, readBuf_eq_ok_iff, readLE_eq_ok_iff]
  case rngnext | bqclr | sample | disdone | dwait | dxfer | kick | schstep | sqtick | reset => rfl
  case fxneg | rngseed | white | brown | bqpushx | bqpushy | bqcomp | q15 | pack | fill | dstart | dnext =>
    exact ⟨_, _, rfl, rfl⟩
  case fxadd | fxsub | fxmul => exact ⟨_, _, rfl, _, _, rfl, rfl⟩
  case fxmac | fxmsub => exact ⟨_, _, rfl, _, _, rfl, _, _, rfl, rfl⟩
  case bufwr =>
    have hidx := of_decide_eq_true hfit
    exact ⟨_, _, rfl, _, _, ⟨rfl, hidx⟩, _, _, rfl, rfl⟩
  case divcalc =>
    simp only [Instr.encodable, Bool.and_eq_true, decide_eq_true_eq] at hfit
    obtain ⟨⟨hp, hq⟩, hk⟩ := hfit
    exact ⟨_, _, ⟨rfl, hp⟩, _, _, ⟨rfl, hq⟩, _, _, ⟨rfl, hk⟩, rfl⟩

/-- The operands of `o` are read only from the operand bytes of an operation named `o` whose operands fit their fields. -/
theorem encodeOperands_of_decodeOperands {o : OpId} {bs rest : List Byte} {i : Instr}
    (h : decodeOperands bs o = .ok (i, rest)) :
    i.opId = o ∧ bs = encodeOperands i ++ rest ∧ i.encodable = true := by
  cases o <;>
    simp only [decodeOperands, Except.bind_eq_ok_iff, Prod.exists, readWord_eq_ok_iff, readSeed_eq_ok_iff,
      readPos_eq_ok_iff, readBuf_eq_ok_iff, readLE_eq_ok_iff, Except.ok.injEq, Prod.mk.injEq] at h
  case rngnext | bqclr | sample | disdone | dwait | dxfer | kick | schstep | sqtick | reset =>
    obtain ⟨rfl, rfl⟩ := h
    exact ⟨rfl, rfl, rfl⟩
  case fxneg | rngseed | white | brown | bqpushx | bqpushy | bqcomp | q15 | pack | fill | dstart | dnext =>
    obtain ⟨_, _, rfl, rfl, rfl⟩ := h
    exact ⟨rfl, rfl, rfl⟩
  case fxadd | fxsub | fxmul =>
    obtain ⟨_, _, rfl, _, _, rfl, rfl, rfl⟩ := h
    exact ⟨rfl, by simp only [encodeOperands, List.append_assoc], rfl⟩
  case fxmac | fxmsub =>
    obtain ⟨_, _, rfl, _, _, rfl, _, _, rfl, rfl, rfl⟩ := h
    exact ⟨rfl, by simp only [encodeOperands, List.append_assoc], rfl⟩
  case bufwr =>
    obtain ⟨_, _, rfl, _, _, ⟨rfl, hidx⟩, _, _, rfl, rfl, rfl⟩ := h
    exact ⟨rfl, by simp only [encodeOperands, List.append_assoc], decide_eq_true hidx⟩
  case divcalc =>
    obtain ⟨_, _, ⟨rfl, hp⟩, _, _, ⟨rfl, hq⟩, _, _, ⟨rfl, hk⟩, rfl, rfl⟩ := h
    exact ⟨rfl, by simp only [encodeOperands, List.append_assoc],
      by simp only [Instr.encodable, Bool.and_eq_true, decide_eq_true_eq]; exact ⟨⟨hp, hq⟩, hk⟩⟩

/-! ## Identifiers -/

/-- A byte names at most the operation whose identifier it is (R98). -/
theorem OpId.ofCode_eq_some_iff (c : Byte) (o : OpId) : OpId.ofCode c = some o ↔ o.code = c := by
  constructor
  · intro h
    have hfound := List.find?_some h
    exact beq_iff_eq.1 hfound
  · rintro rfl
    exact OpId.ofCode_code o

theorem decode_code_cons (o : OpId) (bs : List Byte) : decode (o.code :: bs) = decodeOperands bs o := by
  rw [decode, OpId.ofCode_code]

/-- A byte that is no identifier of R98 is refused, whatever follows it (R100 a). -/
theorem decode_of_unknown {c : Byte} (h : ∀ o : OpId, o.code ≠ c) (bs : List Byte) :
    decode (c :: bs) = .error .unknownIdentifier := by
  have hnone : OpId.ofCode c = none :=
    Option.eq_none_iff_forall_ne_some.2 fun o ho => h o ((OpId.ofCode_eq_some_iff c o).1 ho)
  rw [decode, hnone]

/-- A stream that decodes begins with an identifier of R98, and its operands follow. -/
theorem exists_code_of_decode {bs rest : List Byte} {i : Instr} (h : decode bs = .ok (i, rest)) :
    ∃ o cs, bs = OpId.code o :: cs ∧ decodeOperands cs o = .ok (i, rest) := by
  match bs with
  | [] => cases h
  | c :: cs =>
    by_cases hknown : ∃ o : OpId, o.code = c
    · obtain ⟨o, rfl⟩ := hknown
      rw [decode_code_cons] at h
      exact ⟨o, cs, rfl, h⟩
    · rw [decode_of_unknown (not_exists.1 hknown)] at h
      cases h

/-! ## The round trips -/

/-- Settles O56: the identifier selects the operands' readers, and each reads back what was written. -/
theorem decodeInvertsEncode : Obligations.DecodeInvertsEncode := by
  intro i rest hfit
  rw [encode, List.cons_append, decode_code_cons]
  exact decodeOperands_encodeOperands i rest hfit

/-- Settles O57: a stream that decodes is an identifier followed by what its readers read. -/
theorem encodeInvertsDecode : Obligations.EncodeInvertsDecode := by
  intro bs rest i h
  obtain ⟨o, cs, rfl, hoperands⟩ := exists_code_of_decode h
  obtain ⟨rfl, rfl, hfit⟩ := encodeOperands_of_decodeOperands hoperands
  exact ⟨rfl, hfit⟩

/-- Settles O55: each stream is the encoding of its operation, which decodes by O56. -/
theorem decodeReadsIdentifiers : Obligations.DecodeReadsIdentifiers :=
  ⟨decodeInvertsEncode (.fxadd 0x00004000 0xFFFFC000) [] rfl, decodeInvertsEncode (.white 0xF2BDE6AE) [] rfl,
    decodeInvertsEncode (.bqcomp 0x00010000) [] rfl, decodeInvertsEncode (.bufwr 1 2 0xDEADBEEF) [] rfl,
    decodeInvertsEncode (.dnext 2) [] rfl, decodeInvertsEncode .schstep [0x44, 0x60] rfl,
    decodeInvertsEncode .sqtick [] rfl, decodeInvertsEncode .reset [] rfl⟩

end Sys2Proof

namespace Sys2Proof.Machine

open Sys2Proof

/-! ## The step of a stream -/

theorem State.fetch_of_nonempty {s : State} (h : s.program ≠ []) :
    s.fetch = (decode s.program).map (fun p => (p.1, { s with program := p.2 })) := by
  unfold State.fetch
  split
  · exact absurd ‹s.program = []› h
  · rfl

theorem step_of_decode_ok {s : State} {i : Instr} {rest : List Byte} (h : decode s.program = .ok (i, rest)) :
    step s = exec i { s with program := rest } := by
  have hne : s.program ≠ [] := fun hnil => by
    rw [hnil] at h
    cases h
  rw [step, State.fetch_of_nonempty hne, h]
  rfl

theorem step_of_decode_error {s : State} {e : DecodeError} (hne : s.program ≠ []) (h : decode s.program = .error e) :
    step s = .refused (refusalOf e) := by
  rw [step, State.fetch_of_nonempty hne, h]
  rfl

/-- With no operation in the stream the step is the chosen agent's (R296, log 5). -/
theorem step_of_program_nil {s : State} (h : s.program = []) :
    step s = exec (s.agentOf (Config.schedule s.choices)).op { s with choices := s.choices + 1 } := by
  rw [step, State.fetch, h]

/-- Settles O58. -/
theorem stepRunsTheDecodedOperation : Obligations.StepRunsTheDecodedOperation :=
  fun _ _ _ h => step_of_decode_ok h

theorem readBuf_of_three_le {b : Byte} (hb : 3 ≤ b.toNat) (bs : List Byte) : readBuf (b :: bs) = .error .noSuchBuffer :=
  dif_neg (by omega)

/-- The four operations with a buffer operand read it first (log 1). -/
theorem decode_of_missing_buffer {o : OpId} {b : Byte} (ho : o = .bufwr ∨ o = .fill ∨ o = .dstart ∨ o = .dnext)
    (hb : 3 ≤ b.toNat) (bs : List Byte) : decode (o.code :: b :: bs) = .error .noSuchBuffer := by
  rw [decode_code_cons]
  obtain rfl | rfl | rfl | rfl := ho <;> rw [decodeOperands, readBuf_of_three_le hb] <;> rfl

/-- Settles O59: the decoder's two refusals, handed on by the step. -/
theorem reservedOperationsRefused : Obligations.ReservedOperationsRefused := by
  constructor
  · intro c bs s hunknown hprog
    have hne : s.program ≠ [] := by simp [hprog]
    exact step_of_decode_error hne (by rw [hprog, decode_of_unknown hunknown])
  · intro o b bs s ho hb hprog
    have hne : s.program ≠ [] := by simp [hprog]
    exact step_of_decode_error hne (by rw [hprog, decode_of_missing_buffer ho hb])

end Sys2Proof.Machine
end

section
/-! SUPPORT. The sequencer's tick and frame (`46_sequencer.md` R252 to R254, R260): the four cases of a tick, the state inside a
frame after a number of bit slots, and from that the two statements. -/
namespace Sys2Proof.Machine

open Sys2Proof

/-! ## One tick (R252, R253) -/

section
variable {s : State}

theorem State.tick_clock (hphase : s.seq.phase = true) : s.tick = { s with
    seq := ⟨s.seq.osr, s.seq.bitcnt + 1, false, s.seq.started⟩
    wires := ⟨s.wires.sd, true, s.wires.ws⟩
    wireLog := s.wireLog ++ [(s.wires.ws, s.wires.sd)] } := if_pos hphase

theorem State.tick_stall (hphase : s.seq.phase = false) (hbit : s.seq.bitcnt = 0) (hfifo : s.fifo = []) :
    s.tick = { s with status := s.status.withUnderrun s.seq.started } := by
  simp [State.tick, hphase, hbit, hfifo]

theorem State.tick_pull {w : Word} {rest : List Word} (hphase : s.seq.phase = false) (hbit : s.seq.bitcnt = 0)
    (hfifo : s.fifo = w :: rest) : s.tick = { s with
      fifo := rest, seq := ⟨w <<< 1, 0, true, true⟩, wires := ⟨w.getLsbD 31, false, false⟩ } := by
  simp [State.tick, State.driveBit, hphase, hbit, hfifo]

theorem State.tick_shift (hphase : s.seq.phase = false) (hbit : s.seq.bitcnt ≠ 0) : s.tick = { s with
    seq := ⟨s.seq.osr <<< 1, s.seq.bitcnt, true, s.seq.started⟩
    wires := ⟨s.seq.osr.getLsbD 31, false, decide (16 ≤ s.seq.bitcnt.val)⟩ } := by
  simp [State.tick, State.driveBit, hphase, hbit]

end

theorem exec_sqtick (s : State) : exec .sqtick s = .next { s.tick with result := .unit } := rfl

theorem toNat_shiftLeft_one (w : Word) : (w <<< 1).toNat = w.toNat * 2 % 2 ^ 32 := by
  rw [BitVec.toNat_shiftLeft, Nat.shiftLeft_eq, pow_one]

/-- The bit that goes out is the most significant one (R95). -/
theorem getLsbD_31_eq_decide (w : Word) : w.getLsbD 31 = decide (2 ^ 31 ≤ w.toNat) := by
  have hmsb : w.getLsbD 31 = w.msb := (BitVec.msb_eq_getLsbD_last w).symm
  rw [hmsb, BitVec.msb_eq_decide]

/-- Settles O44: the four cases of a tick, with the shift and the outgoing bit read as numbers. -/
theorem sqtickShiftsHalfABit : Obligations.SqtickShiftsHalfABit := by
  intro s
  refine ⟨fun hphase => ?_, fun ⟨hphase, hbit, hfifo⟩ => ?_, fun w rest ⟨hphase, hbit, hfifo⟩ => ?_,
    fun ⟨hphase, hbit⟩ => ?_⟩
  · rw [exec_sqtick, State.tick_clock hphase]
  · rw [exec_sqtick, State.tick_stall hphase hbit hfifo]
    rfl
  · refine ⟨w <<< 1, toNat_shiftLeft_one w, ?_⟩
    rw [exec_sqtick, State.tick_pull hphase hbit hfifo, ← getLsbD_31_eq_decide]
  · refine ⟨s.seq.osr <<< 1, toNat_shiftLeft_one _, ?_⟩
    rw [exec_sqtick, State.tick_shift hphase hbit, ← getLsbD_31_eq_decide]

/-! ## A bit slot: two ticks -/

theorem runOps_append_of_next {is : List Instr} {s t : State} (h : runOps is s = .next t) (js : List Instr) :
    runOps (is ++ js) s = runOps js t := by
  induction is generalizing s with
  | nil =>
    cases h
    rfl
  | cons i is ih =>
    rw [runOps] at h
    rw [List.cons_append, runOps]
    cases hexec : exec i s with
    | next u =>
      rw [hexec] at h
      exact ih h
    | fault | refused =>
      rw [hexec] at h
      cases h

/-- The operations of `n` bit slots. -/
def slotOps (n : Nat) : List Instr := List.replicate (n * 2) .sqtick

theorem slotOps_succ (n : Nat) : slotOps (n + 1) = slotOps n ++ slotOps 1 := by
  rw [slotOps, Nat.succ_mul, List.replicate_add]
  rfl

theorem frame_eq_slotOps : Instr.frame = slotOps 32 := rfl

theorem runOps_slot (s : State) :
    runOps (slotOps 1) s = .next (({ s.tick with result := .unit } : State).tick.ret .unit) := rfl

/-! ## The frame (R95, R254, R260) -/

/-- The state after `n` bit slots, at least one, of a frame that sends `w` and began in `s`: `n` bits are shifted out and logged,
and the wires show the last of them. -/
def State.afterSlots (s : State) (w : Word) (rest : List Word) (n : Nat) : State :=
  { s with
    fifo := rest
    seq := ⟨w <<< n, Fin.ofNat 32 n, false, true⟩
    wires := ⟨w.getLsbD (32 - n), true, decide (16 < n)⟩
    wireLog := s.wireLog ++ (frameLog w).take n
    result := .unit }

/-- The entry of one bit slot in the log (R260). -/
theorem frameLog_take_succ (w : Word) {n : Nat} (hn : n < 32) :
    (frameLog w).take (n + 1) = (frameLog w).take n ++ [(decide (16 ≤ n), w.getLsbD (31 - n))] := by
  have hlen : n < (frameLog w).length := by simpa [frameLog] using hn
  rw [List.take_succ_eq_append_getElem hlen]
  simp [frameLog]

theorem runOps_firstSlot {w : Word} {rest : List Word} {s : State} (hphase : s.seq.phase = false)
    (hbit : s.seq.bitcnt = 0) (hfifo : s.fifo = w :: rest) : runOps (slotOps 1) s = .next (s.afterSlots w rest 1) := by
  rw [runOps_slot, State.tick_pull hphase hbit hfifo, State.tick_clock rfl]
  rfl

/-- The word shifted `n` times shows its bit `31 - n` at the top. -/
theorem getLsbD_31_shiftLeft (w : Word) {n : Nat} (hn : n < 32) : (w <<< n).getLsbD 31 = w.getLsbD (31 - n) := by
  rw [BitVec.getLsbD_shiftLeft, decide_eq_true (by decide), decide_eq_false (by omega), Bool.not_false, Bool.and_true,
    Bool.true_and]

theorem runOps_nextSlot {w : Word} {rest : List Word} {n : Nat} (s : State) (h0 : 0 < n) (hn : n < 32) :
    runOps (slotOps 1) (s.afterSlots w rest n) = .next (s.afterSlots w rest (n + 1)) := by
  have hval : (Fin.ofNat 32 n).val = n := Nat.mod_eq_of_lt hn
  have hbit : (s.afterSlots w rest n).seq.bitcnt ≠ 0 := fun h => by
    have hzero : n = 0 := hval.symm.trans (congrArg Fin.val h)
    omega
  have hsucc : Fin.ofNat 32 n + 1 = Fin.ofNat 32 (n + 1) := by
    apply Fin.ext
    simp [Fin.val_add, Fin.ofNat]
  have hsub : 32 - (n + 1) = 31 - n := by omega
  have hws : decide (16 ≤ n) = decide (16 < n + 1) := by simp only [Nat.lt_succ_iff]
  rw [runOps_slot, State.tick_shift rfl hbit, State.tick_clock rfl]
  simp only [State.afterSlots, State.ret, frameLog_take_succ w hn, List.append_assoc, hval, hsucc, hsub, ← hws,
    getLsbD_31_shiftLeft w hn, BitVec.shiftLeft_add]

/-- Every bit slot of the frame. -/
theorem runOps_slots {w : Word} {rest : List Word} {s : State} (hphase : s.seq.phase = false)
    (hbit : s.seq.bitcnt = 0) (hfifo : s.fifo = w :: rest) {n : Nat} (hn : n < 32) :
    runOps (slotOps (n + 1)) s = .next (s.afterSlots w rest (n + 1)) := by
  induction n with
  | zero => exact runOps_firstSlot hphase hbit hfifo
  | succ n ih =>
    rw [slotOps_succ, runOps_append_of_next (ih (by omega))]
    exact runOps_nextSlot s (by omega) hn

/-- Settles O45: 32 bit slots shift out the whole word and bring the bit count back to 0. -/
theorem frameSendsTheWord : Obligations.FrameSendsTheWord := by
  intro w rest s hphase hbit hfifo
  have hlog : (frameLog w).take 32 = frameLog w := List.take_of_length_le (by simp [frameLog])
  have hosr : w <<< 32 = 0#32 := by simp
  rw [frame_eq_slotOps, runOps_slots hphase hbit hfifo (n := 31) (by decide), State.afterSlots, hlog, hosr]
  rfl

end Sys2Proof.Machine
end

section
/-! SUPPORT. What an operation can do to the state, said once for all 29: a chain of effects on the pipeline, or one step of the
engine or the sequencer. What no operation may do follows from that by a case each. -/
namespace Sys2Proof.Machine

open Sys2Proof

/-! ## The effects -/

/-- One effect on the sample pipeline, the buffers or `STATUS`; the registers that no owner, slot or history depends on are
written freely. -/
inductive PipelineEffect (s : State) : State → Prop
  | registers (rng : RngState) (noise : FX) (filt : FilterState) (sched : Sched) (gen : Nat) (r : OpResult) :
    PipelineEffect s { s with
      rngState := rng, noiseState := noise, filt := filt, sched := sched, genCount := gen, result := r }
  | clip (y : FX) : PipelineEffect s (s.noteClip y)
  | write {b : BufId} {i : Nat} {v : Word} {t : State} (hi : i < s.cfg.bufWords) (h : s.memWrite b i v = .ok t) :
    PipelineEffect s t
  | fault (e : Raise) : PipelineEffect s (s.takeFault e)

/-- Effects on the pipeline, one after another. -/
abbrev PipelineEffects : State → State → Prop := Relation.ReflTransGen PipelineEffect

/-- A completed engine command (R202, R204, R205). -/
inductive Command (s : State) : State → Prop
  | start {b : BufId} {t : State} (h : s.startTransfer b = .ok t) : Command s t
  | next {b : BufId} {old : Option BufId} {t : State} (h : s.nextTransfer b = .ok (old, t)) : Command s t
  | wait {old : Option BufId} {t : State} (hwait : ¬ s.waitHeld = true) (h : s.reclaim = .ok (old, t)) : Command s t

/-- What an operation other than `RESET` can do. A command of the scheduler also writes the scheduler's registers. -/
inductive Effect (s : State) : State → Prop
  | pipeline {t : State} (h : PipelineEffects s t) : Effect s t
  | command {t : State} (h : Command s t) (sched : Sched) (r : OpResult) : Effect s { t with sched := sched, result := r }
  | move {k : Fin 2} {b : BufId} (hrun : s.runningSlot = some k) (hbuf : (s.slot.get k).buf = some b)
    (hidx : (s.slot.get k).idx < s.cfg.bufWords) (hroom : s.fifo.length < s.cfg.fifoDepth) :
    Effect s ((s.moveWord k b).ret .unit)
  | kick : Effect s (s.kick.ret .unit)
  | tick : Effect s (s.tick.ret .unit)

/-- What a step of the scheduler can do (R230): one fill step with its bookkeeping, a command, a change of its own registers only,
or a fault. A command issued by itself is the case that leaves the scheduler's registers. -/
inductive SchedulerStep (s : State) : State → Prop
  | fill {b : BufId} {i : Nat} {t : State} (hi : i < s.cfg.bufWords) (h : s.fillWord b i = .ok t) (sched : Sched)
    (gen : Nat) : SchedulerStep s { t with sched := sched, genCount := gen, result := .unit }
  | command {t : State} (h : Command s t) (sched : Sched) (r : OpResult) :
    SchedulerStep s { t with sched := sched, result := r }
  | registers (sched : Sched) (r : OpResult) : SchedulerStep s { s with sched := sched, result := r }
  | fault (e : Raise) : SchedulerStep s (s.takeFault e)

theorem PipelineEffect.ret (s : State) (r : OpResult) : PipelineEffect s (s.ret r) := .registers _ _ _ _ _ r

theorem PipelineEffects.of {s t : State} (h : PipelineEffect s t) : PipelineEffects s t := .single h

theorem PipelineEffects.then {s t u : State} (h : PipelineEffects s t) (h' : PipelineEffect t u) : PipelineEffects s u :=
  .tail h h'

/-! ## Every operation has one of the effects -/

/-- The two ends of an operation that concludes: the effect of its answer, or the fault taken in the state before. -/
theorem conclude_map_next {α : Type} {s t : State} {x : Except Raise α} {f : α → OpResult × State}
    (h : conclude s (x.map f) = .next t) :
    (∃ a, x = .ok a ∧ t = (f a).2.ret (f a).1) ∨ (∃ e, x = .error e ∧ t = s.takeFault e) := by
  cases x with
  | ok a => cases h; exact .inl ⟨a, rfl, rfl⟩
  | error e => cases h; exact .inr ⟨e, rfl, rfl⟩

/-- A computed value that only registers of the pipeline take. -/
theorem conclude_map_effects {α : Type} {s t : State} {x : Except Raise α} {f : α → OpResult × State}
    (hf : ∀ a, x = .ok a → PipelineEffects s (f a).2) (h : conclude s (x.map f) = .next t) : PipelineEffects s t := by
  rcases conclude_map_next h with ⟨a, hok, rfl⟩ | ⟨e, -, rfl⟩
  · exact (hf a hok).then (.ret _ _)
  · exact .of (.fault e)

theorem conclude_map_command {α : Type} {s t : State} {x : Except Raise α} {f : α → OpResult × State}
    (hf : ∀ a, x = .ok a → ∃ u sched, Command s u ∧ (f a).2 = { u with sched := sched })
    (h : conclude s (x.map f) = .next t) : SchedulerStep s t := by
  rcases conclude_map_next h with ⟨a, hok, rfl⟩ | ⟨e, -, rfl⟩
  · obtain ⟨u, sched, hcommand, hu⟩ := hf a hok
    rw [hu]
    exact .command hcommand sched _
  · exact .fault e

theorem concludeFx_effects {o : OpId} {s t : State} {r : Option FX} (h : concludeFx o s r = .next t) :
    PipelineEffects s t :=
  conclude_map_effects (fun _ _ => .refl) h

theorem hold_effects {s t : State} (h : s.hold = .next t) : PipelineEffects s t := by
  cases h
  exact .of (.ret _ _)

theorem nextSample_effects {s t : State} {y : FX} (h : s.nextSample = .ok (y, t)) : PipelineEffects s t := by
  rw [nextSample_frame h]
  exact .of (.registers _ _ _ _ _ _)

theorem fillWord_effects {s t : State} {b : BufId} {i : Nat} (hi : i < s.cfg.bufWords) (h : s.fillWord b i = .ok t) :
    PipelineEffects s t := by
  rcases hsample : s.nextSample with e | ⟨y, u⟩
  · rw [fillWord_of_sample_error hsample] at h
    cases h
  · have hcfg : u.cfg = s.cfg := by rw [nextSample_frame hsample]
    rw [fillWord_of_sample hsample] at h
    exact ((nextSample_effects hsample).then (.clip y)).then (.write (by simpa [hcfg] using hi) h)

theorem fillFrom_effects {b : BufId} {n i : Nat} {s : State} (hi : i + n ≤ s.cfg.bufWords) :
    PipelineEffects s (State.fillFrom b n i s) := by
  induction n generalizing i s with
  | zero => exact .of (.registers _ _ _ _ _ _)
  | succ n ih =>
    rw [State.fillFrom]
    rcases hword : s.fillWord b i with e | t
    · exact .of (.fault e)
    · have hcfg : t.cfg = s.cfg := by rw [fillWord_frame hword]
      exact (fillWord_effects (by omega) hword).trans (ih (by rw [hcfg]; omega))

theorem schFill_step {s t : State} {b : Option BufId} {n : Sch} (h : schFill b n s = .next t) : SchedulerStep s t := by
  cases b with
  | none => cases h
  | some b =>
    rw [schFill] at h
    split at h
    case isTrue hi =>
      rcases conclude_map_next h with ⟨u, hword, rfl⟩ | ⟨e, -, rfl⟩
      · unfold State.advanceFill
        split
        · exact .fill hi hword _ _
        · exact .fill hi hword _ _
      · exact .fault e
    case isFalse => cases h

/-- With a fault recorded, or a `DWAIT` held, the PRODUCER takes no step. -/
theorem exec_schstep_of_not_enabled {s : State} (h : ¬ s.producerEnabled = true) : exec .schstep s = s.hold := if_neg h

/-- When the PRODUCER has a step (R230, R296). -/
theorem producerEnabled_iff {s : State} :
    s.producerEnabled = true ↔ s.status.fault = 0 ∧ ¬ (s.sched.sch = .primeWait ∧ s.waitHeld = true) := by
  rw [State.producerEnabled, Bool.and_eq_true, decide_eq_true_iff, Bool.not_eq_true', ← Bool.not_eq_true, Bool.and_eq_true,
    decide_eq_true_iff]

theorem exec_schstep_step {s t : State} (h : exec .schstep s = .next t) : SchedulerStep s t := by
  by_cases henabled : s.producerEnabled = true
  case neg =>
    rw [exec_schstep_of_not_enabled henabled] at h
    cases h
    exact .registers _ _
  rw [exec_schstep, execSchstep, if_pos henabled] at h
  cases hsch : s.sched.sch <;> simp only [hsch] at h
  case primeFill0 | primeFill1 | primeFill2 | runFill => exact schFill_step h
  case primeStart => exact conclude_map_command (fun u hu => ⟨u, _, .start hu, rfl⟩) h
  case primeNext1 | primeNext2 => exact conclude_map_command (fun p hp => ⟨p.2, _, .next hp, rfl⟩) h
  case primeWait =>
    exact conclude_map_command
      (fun p hp => ⟨p.2, _, .wait (fun hheld => (producerEnabled_iff.1 henabled).2 ⟨hsch, hheld⟩) hp, rfl⟩) h
  case runPoll =>
    rw [schPoll_eq hsch] at h
    cases h
    exact .registers _ _
  case runNext =>
    unfold schRunNext at h
    split at h
    · cases h
    · exact conclude_map_command (fun p hp => ⟨p.2, _, .next hp, rfl⟩) h

theorem SchedulerStep.effect {s t : State} (h : SchedulerStep s t) : Effect s t := by
  cases h with
  | fill hi h => exact .pipeline ((fillWord_effects hi h).then (.registers _ _ _ _ _ _))
  | command h sched r => exact .command h sched r
  | registers => exact .pipeline (.of (.registers _ _ _ _ _ _))
  | fault e => exact .pipeline (.of (.fault e))

/-- Every operation but `RESET` has one of the effects. -/
theorem exec_effect {i : Instr} {s t : State} (hi : i ≠ .reset) (h : exec i s = .next t) : Effect s t := by
  cases i with
  | fxadd | fxsub | fxneg | fxmul | fxmac | fxmsub => exact .pipeline (concludeFx_effects h)
  | rngseed seed =>
    refine .pipeline (conclude_map_effects (fun u hu => ?_) h)
    unfold State.seedRng at hu
    split at hu
    · cases hu
    · cases hu
      exact .of (.registers _ _ _ _ _ _)
  | rngnext | white | bqclr | bqpushx | bqpushy | disdone =>
    cases h
    exact .pipeline (.of (.registers _ _ _ _ _ _))
  | brown | bqcomp => exact .pipeline (conclude_map_effects (fun _ _ => .of (.registers _ _ _ _ _ _)) h)
  | q15 y | pack y =>
    cases h
    exact .pipeline (.then (.of (.clip y)) (.ret _ _))
  | sample => exact .pipeline (conclude_map_effects (fun _ hsample => nextSample_effects hsample) h)
  | bufwr b k v =>
    by_cases hk : k < s.cfg.bufWords
    · rw [exec_bufwr_of_lt hk] at h
      exact .pipeline (conclude_map_effects (fun _ hwrite => .of (.write hk hwrite)) h)
    · change execBufwr b k v s = _ at h
      rw [execBufwr, if_neg hk] at h
      cases h
  | fill b =>
    cases h
    exact .pipeline (fillFrom_effects (Nat.zero_add _).le)
  | dstart b => exact (conclude_map_command (fun u hu => ⟨u, u.sched, .start hu, rfl⟩) h).effect
  | dnext b => exact (conclude_map_command (fun p hp => ⟨p.2, p.2.sched, .next hp, rfl⟩) h).effect
  | dwait =>
    change execDwait s = _ at h
    unfold execDwait at h
    split at h
    · exact .pipeline (hold_effects h)
    · exact (conclude_map_command (fun p hp => ⟨p.2, p.2.sched, .wait ‹_› hp, rfl⟩) h).effect
  | dxfer =>
    change execDxfer s = _ at h
    rcases execDxfer_eq s with ⟨-, he⟩ | ⟨k, b, hrun, hroom, hbuf, hidx, he⟩ | ⟨k, -, -, -, he⟩ |
      ⟨k, -, -, -, he⟩ <;> rw [he] at h
    · exact .pipeline (hold_effects h)
    · cases h
      exact .move hrun hbuf hidx hroom
    · cases h
    · cases h
  | kick =>
    cases h
    exact .kick
  | schstep => exact (exec_schstep_step h).effect
  | sqtick =>
    cases h
    exact .tick
  | divcalc p q k =>
    change execDivcalc p q k s = _ at h
    unfold execDivcalc at h
    split at h <;> cases h
    · exact .pipeline (.of (.ret _ _))
    · exact .pipeline (.of (.fault _))
  | reset => exact absurd rfl hi

/-! ## What each effect leaves unchanged -/

theorem memWrite_frame {s t : State} {b : BufId} {i : Nat} {v : Word} (h : s.memWrite b i v = .ok t) :
    t = { s with buf := t.buf } := by
  rcases memWrite_eq s b i v with ⟨-, hfault⟩ | ⟨-, hwrite⟩
  · rw [hfault] at h
    cases h
  · rw [hwrite] at h
    cases h
    rfl

/-- `STATUS` as R32 and R281 let it change without `RESET`: a recorded fault stays, a new one has a code of R97 and its operation,
the sticky bits stay. -/
abbrev Status.KeptBy (st st' : Status) : Prop :=
  (st.fault ≠ 0 → st'.fault = st.fault ∧ st'.faultOp = st.faultOp) ∧
  (st.fault = 0 → st'.fault.toNat ≤ 4 ∧ (st'.fault = 0 → st'.faultOp = st.faultOp)) ∧
  (st.underrun = true → st'.underrun = true) ∧ (st.clip = true → st'.clip = true)

/-- Only the sticky bits change. -/
theorem Status.keptBy_of_sticky {st st' : Status} (hfault : st'.fault = st.fault) (hop : st'.faultOp = st.faultOp)
    (hunder : st.underrun = true → st'.underrun = true) (hclip : st.clip = true → st'.clip = true) : st.KeptBy st' :=
  ⟨fun _ => ⟨hfault, hop⟩, fun h0 => ⟨by rw [hfault, h0]; decide, fun _ => hop⟩, hunder, hclip⟩

theorem Status.KeptBy.refl (st : Status) : st.KeptBy st := Status.keptBy_of_sticky rfl rfl id id

theorem Status.KeptBy.trans {a b c : Status} (hab : a.KeptBy b) (hbc : b.KeptBy c) : a.KeptBy c := by
  obtain ⟨hset, hclear, hunder, hclip⟩ := hab
  obtain ⟨hset', hclear', hunder', hclip'⟩ := hbc
  refine ⟨fun ha => ?_, fun ha => ?_, hunder' ∘ hunder, hclip' ∘ hclip⟩
  · obtain ⟨hf, ho⟩ := hset ha
    obtain ⟨hf', ho'⟩ := hset' (hf ▸ ha)
    exact ⟨hf'.trans hf, ho'.trans ho⟩
  · obtain ⟨hle, hop⟩ := hclear ha
    by_cases hb : b.fault = 0
    · obtain ⟨hle', hop'⟩ := hclear' hb
      exact ⟨hle', fun hc => (hop' hc).trans (hop hb)⟩
    · obtain ⟨hf', -⟩ := hset' hb
      exact ⟨hf' ▸ hle, fun hc => absurd (hf' ▸ hc) hb⟩

theorem Cause.code_toNat_le (c : Cause) : c.code.toNat ≤ 4 := by cases c <;> decide

theorem Status.keptBy_record (st : Status) (c : Cause) (o : OpId) : st.KeptBy (st.record c o) := by
  rcases st.record_eq c o with ⟨h0, hrecord⟩ | ⟨-, hrecord⟩
  · rw [hrecord]
    exact ⟨fun h => absurd h0 h, fun _ => ⟨c.code_toNat_le, fun h => absurd h c.code_ne_zero⟩, id, id⟩
  · rw [hrecord]
    exact .refl st

theorem Status.keptBy_withClip (st : Status) (b : Bool) : st.KeptBy (st.withClip b) :=
  Status.keptBy_of_sticky rfl rfl id fun h => by simp [Status.withClip, h]

/-- What the pipeline's effects leave alone: the configuration, the engine, the FIFO, the sequencer and the model's own counts. -/
abbrev PipelineFrame (s t : State) : Prop :=
  t = { s with
    rngState := t.rngState, noiseState := t.noiseState, filt := t.filt, buf := t.buf, status := t.status
    sched := t.sched, genCount := t.genCount, result := t.result }

theorem PipelineEffect.frame {s t : State} (h : PipelineEffect s t) : PipelineFrame s t := by
  cases h with
  | registers | clip | fault => rfl
  | write _ hwrite =>
    rw [memWrite_frame hwrite]

theorem PipelineEffects.frame {s t : State} (h : PipelineEffects s t) : PipelineFrame s t := by
  induction h with
  | refl => rfl
  | tail _ hstep ih =>
    have hframe := hstep.frame
    rw [ih] at hframe
    exact hframe

theorem PipelineEffect.status {s t : State} (h : PipelineEffect s t) :
    s.status.KeptBy t.status ∧ t.status.underrun = s.status.underrun := by
  cases h with
  | registers => exact ⟨.refl _, rfl⟩
  | clip y => exact ⟨Status.keptBy_withClip _ _, rfl⟩
  | fault e =>
    refine ⟨Status.keptBy_record _ _ _, ?_⟩
    rcases s.status.record_eq e.cause e.op with ⟨-, hrecord⟩ | ⟨-, hrecord⟩ <;> rw [State.takeFault_status, hrecord]
  | write _ hwrite =>
    rw [memWrite_frame hwrite]
    exact ⟨.refl _, rfl⟩

theorem PipelineEffects.status {s t : State} (h : PipelineEffects s t) :
    s.status.KeptBy t.status ∧ t.status.underrun = s.status.underrun := by
  induction h with
  | refl => exact ⟨.refl _, rfl⟩
  | tail _ hstep ih =>
    obtain ⟨hkept, hunder⟩ := ih
    obtain ⟨hkept', hunder'⟩ := hstep.status
    exact ⟨hkept.trans hkept', hunder'.trans hunder⟩

/-- A command writes owners, slots, `HEAD` and `CNT`. -/
theorem Command.frame {s t : State} (h : Command s t) :
    t = { s with owner := t.owner, slot := t.slot, head := t.head, cnt := t.cnt } := by
  cases h with
  | @start b _ h =>
    rcases startTransfer_eq s b with ⟨-, he⟩ | ⟨-, -, he⟩ | ⟨-, -, he⟩ <;> rw [he] at h <;> cases h
    rfl
  | @next b _ _ h =>
    rcases nextTransfer_eq s b with ⟨-, he⟩ | ⟨-, -, he⟩ | ⟨-, -, he⟩ | ⟨-, -, -, he⟩ | ⟨-, -, -, he⟩ <;>
      rw [he] at h <;> cases h
    · rfl
    · rfl
  | wait _ h =>
    rcases reclaim_eq s with ⟨-, he⟩ | ⟨-, he⟩ <;> rw [he] at h <;> cases h
    rfl

/-- A tick writes the FIFO, the sequencer, the wires, `WIRE_LOG` and `UNDERRUN`; it takes words from the FIFO's head only. -/
theorem State.tick_frame (s : State) :
    s.tick = { s with
      fifo := s.tick.fifo, seq := s.tick.seq, wires := s.tick.wires, wireLog := s.tick.wireLog
      status := { s.status with underrun := s.tick.status.underrun } } ∧
    (∃ ws, s.fifo = ws ++ s.tick.fifo) ∧ (s.status.underrun = true → s.tick.status.underrun = true) := by
  rcases hphase : s.seq.phase with _ | _
  · by_cases hbit : s.seq.bitcnt = 0
    · rcases hfifo : s.fifo with _ | ⟨w, rest⟩
      · rw [State.tick_stall hphase hbit hfifo]
        exact ⟨rfl, ⟨[], hfifo.symm⟩, fun h => by simp [Status.withUnderrun, h]⟩
      · rw [State.tick_pull hphase hbit hfifo]
        exact ⟨rfl, ⟨[w], rfl⟩, id⟩
    · rw [State.tick_shift hphase hbit]
      exact ⟨rfl, ⟨[], rfl⟩, id⟩
  · rw [State.tick_clock hphase]
    exact ⟨rfl, ⟨[], rfl⟩, id⟩

/-! ## The configuration and `STATUS` -/

/-- The configuration and the model's own fields that no operation writes. -/
abbrev ConfigKept (s t : State) : Prop :=
  t.cfg = s.cfg ∧ t.program = s.program ∧ t.choices = s.choices ∧ t.resetCount = s.resetCount

theorem Effect.configKept {s t : State} (h : Effect s t) : ConfigKept s t := by
  cases h with
  | pipeline h =>
    rw [h.frame]
    exact ⟨rfl, rfl, rfl, rfl⟩
  | command h sched r =>
    rw [h.frame]
    exact ⟨rfl, rfl, rfl, rfl⟩
  | move | kick => exact ⟨rfl, rfl, rfl, rfl⟩
  | tick =>
    rw [s.tick_frame.1]
    exact ⟨rfl, rfl, rfl, rfl⟩

theorem exec_reset (s : State) : exec .reset s = .next { s.applyReset with result := .unit } := rfl

/-- Settles O50: no effect writes the configuration, and `RESET` keeps it. -/
theorem configurationNeverWritten : Obligations.ConfigurationNeverWritten := by
  intro i s t h
  by_cases hi : i = .reset
  · subst hi
    rw [exec_reset] at h
    cases h
    exact ⟨rfl, rfl, rfl, fun hne => absurd rfl hne⟩
  · obtain ⟨hcfg, hprog, hchoices, hresets⟩ := (exec_effect hi h).configKept
    exact ⟨hcfg, hprog, hchoices, fun _ => hresets⟩

theorem Effect.status {s t : State} (h : Effect s t) : s.status.KeptBy t.status := by
  cases h with
  | pipeline h => exact h.status.1
  | command h sched r =>
    rw [h.frame]
    exact .refl _
  | move | kick => exact .refl _
  | tick =>
    obtain ⟨hframe, -, hunder⟩ := s.tick_frame
    rw [State.ret_status, hframe]
    exact Status.keptBy_of_sticky rfl rfl hunder id

/-- Settles O49: every effect keeps `STATUS` as R32 and R281 say. -/
theorem statusClearedOnlyByReset : Obligations.StatusClearedOnlyByReset :=
  fun _ _ _ hi h => (exec_effect hi h).status

/-! ## The buffers -/

/-- A word of a buffer the engine owns reads as before (R67). -/
theorem PipelineEffect.memRead {s t : State} (h : PipelineEffect s t) {b : BufId} (hb : s.owner.get b = .E) (j : Nat) :
    t.memRead b j = s.memRead b j := by
  cases h with
  | registers | clip | fault => rfl
  | @write c i v _ _ hwrite =>
    have hother : ¬ (b = c ∧ j = i) := by
      rintro ⟨rfl, -⟩
      rw [memWrite_of_engine hb] at hwrite
      cases hwrite
    rw [memRead_memWrite hwrite, if_neg hother]

theorem PipelineEffects.memRead {s t : State} (h : PipelineEffects s t) {b : BufId} (hb : s.owner.get b = .E) (j : Nat) :
    t.memRead b j = s.memRead b j := by
  induction h with
  | refl => rfl
  | tail hchain hstep ih =>
    have howner := congrArg State.owner (PipelineEffects.frame hchain)
    exact (hstep.memRead (howner ▸ hb) j).trans ih

theorem Effect.memRead {s t : State} (h : Effect s t) {b : BufId} (hb : s.owner.get b = .E) (j : Nat) :
    t.memRead b j = s.memRead b j := by
  cases h with
  | pipeline h => exact h.memRead hb j
  | command h sched r =>
    rw [h.frame]
    rfl
  | move | kick => rfl
  | tick =>
    rw [s.tick_frame.1]
    rfl

/-- Settles O37: only the pipeline writes buffers, and never one the engine owns. -/
theorem engineOwnedBufferNeverMutated : Obligations.EngineOwnedBufferNeverMutated :=
  fun _ _ _ _ j hi hb h => (exec_effect hi h).memRead hb j

/-! ## Storage -/

/-- A buffer in canonical form with indices in [0, n-1] only (R61, log 9). -/
abbrev Memory.Valid (n : Nat) (m : Memory) : Prop := m.wf = true ∧ m.within n = true

theorem PipelineEffect.memory_valid {s t : State} (h : PipelineEffect s t)
    (hs : ∀ b, Memory.Valid s.cfg.bufWords (s.buf.get b)) : ∀ b, Memory.Valid t.cfg.bufWords (t.buf.get b) := by
  cases h with
  | registers | clip | fault => exact hs
  | @write c i v _ hi hwrite =>
    rcases memWrite_eq s c i v with ⟨-, hfault⟩ | ⟨-, hok⟩
    · rw [hfault] at hwrite
      cases hwrite
    · rw [hok] at hwrite
      cases hwrite
      intro b
      obtain ⟨hwf, hwithin⟩ := hs c
      rw [Three.get_set]
      split
      · exact ⟨Memory.wf_write _ i v hwf, Memory.within_write _ _ i v hwithin hi⟩
      · exact hs b

theorem PipelineEffects.memory_valid {s t : State} (h : PipelineEffects s t)
    (hs : ∀ b, Memory.Valid s.cfg.bufWords (s.buf.get b)) : ∀ b, Memory.Valid t.cfg.bufWords (t.buf.get b) := by
  induction h with
  | refl => exact hs
  | tail _ hstep ih => exact hstep.memory_valid ih

theorem Effect.storageInv {s t : State} (h : Effect s t) (hs : StorageInv s) : StorageInv t := by
  obtain ⟨hbuf, hfifo⟩ := hs
  cases h with
  | pipeline h =>
    refine ⟨h.memory_valid hbuf, ?_⟩
    rw [h.frame]
    exact hfifo
  | command h sched r =>
    rw [h.frame]
    exact ⟨hbuf, hfifo⟩
  | move _ _ _ hroom => exact ⟨hbuf, by simpa [State.moveWord] using hroom⟩
  | kick => exact ⟨hbuf, hfifo⟩
  | tick =>
    obtain ⟨hframe, ⟨ws, hws⟩, -⟩ := s.tick_frame
    have hlen : s.tick.fifo.length ≤ s.fifo.length := by
      rw [hws, List.length_append]
      omega
    rw [hframe]
    exact ⟨hbuf, hlen.trans hfifo⟩

theorem storageInv_applyReset (s : State) : StorageInv s.applyReset := by
  refine ⟨fun b => ?_, Nat.zero_le _⟩
  match b with
  | 0 | 1 | 2 => exact ⟨rfl, rfl⟩

/-! ## Steps -/

/-- The step of an invariant that no effect and no `RESET` breaks, and that reads neither the stream nor the count of choices. -/
theorem step_keeps {P : State → Prop} (hprogram : ∀ s bs, P s → P { s with program := bs })
    (hchoices : ∀ s n, P s → P { s with choices := n }) (heffect : ∀ s t, Effect s t → P s → P t)
    (hreset : ∀ s, P s → P { s.applyReset with result := .unit }) {s t : State} (hs : P s) (h : step s = .next t) :
    P t := by
  have hexec : ∀ i u, P u → exec i u = .next t → P t := fun i u hu hi => by
    by_cases hr : i = .reset
    · subst hr
      rw [exec_reset] at hi
      cases hi
      exact hreset u hu
    · exact heffect u t (exec_effect hr hi) hu
  by_cases hnil : s.program = []
  · rw [step_of_program_nil hnil] at h
    exact hexec _ _ (hchoices s _ hs) h
  · rcases hdecode : decode s.program with e | ⟨i, rest⟩
    · rw [step_of_decode_error hnil hdecode] at h
      cases h
    · rw [step_of_decode_ok hdecode] at h
      exact hexec _ _ (hprogram s rest hs) h

/-- Settles O38: every effect keeps the storage within its bounds, and `RESET` empties it. -/
theorem storageInvKeptByEveryStep : Obligations.StorageInvKeptByEveryStep :=
  fun _ _ => step_keeps (fun _ _ h => h) (fun _ _ h => h) (fun _ _ => Effect.storageInv)
    (fun s _ => storageInv_applyReset s)

/-! ## The three agents (R295) -/

theorem exec_schstep_touches {s t : State} (h : exec .schstep s = .next t) :
    t.fifo = s.fifo ∧ t.seq = s.seq ∧ t.wires = s.wires ∧ t.wireLog = s.wireLog ∧
      t.status.underrun = s.status.underrun := by
  cases exec_schstep_step h with
  | fill hi hword =>
    have heffects := fillWord_effects hi hword
    have hunder := heffects.status.2
    rw [heffects.frame]
    exact ⟨rfl, rfl, rfl, rfl, hunder⟩
  | command hcommand =>
    rw [hcommand.frame]
    exact ⟨rfl, rfl, rfl, rfl, rfl⟩
  | registers => exact ⟨rfl, rfl, rfl, rfl, rfl⟩
  | fault e => exact ⟨rfl, rfl, rfl, rfl, (PipelineEffect.fault e).status.2⟩

theorem exec_dxfer_touches {s t : State} (h : exec .dxfer s = .next t) :
    t = { s with fifo := t.fifo, slot := t.slot, result := t.result } ∧ ∃ ws, t.fifo = s.fifo ++ ws := by
  change execDxfer s = _ at h
  rcases execDxfer_eq s with ⟨-, he⟩ | ⟨k, b, -, -, -, -, he⟩ | ⟨k, -, -, -, he⟩ | ⟨k, -, -, -, he⟩ <;>
    rw [he] at h
  · cases h
    exact ⟨rfl, [], (List.append_nil _).symm⟩
  · cases h
    exact ⟨rfl, _, rfl⟩
  · cases h
  · cases h

/-- Settles O51. -/
theorem agentsTouchOnlyTheirState : Obligations.AgentsTouchOnlyTheirState := by
  intro s t
  refine ⟨exec_schstep_touches, exec_dxfer_touches, fun h => ?_⟩
  obtain ⟨hframe, hfifo, -⟩ := s.tick_frame
  cases h
  exact ⟨congrArg (State.ret · .unit) hframe, hfifo⟩

end Sys2Proof.Machine
end

section
/-! SUPPORT. The transfer engine's commands (`44_transfer_engine.md` R204, R205, R207): how each command
ends and what `KICK` does to a slot just armed, and from that the statements. -/
namespace Sys2Proof

/-- Two arrays of two are equal when this entry and the other are. -/
theorem Two.eq_of_get {α : Type} {t u : Two α} (k : Fin 2) (h : t.get k = u.get k) (h' : t.get (1 - k) = u.get (1 - k)) :
    t = u := by
  obtain ⟨t0, t1⟩ := t
  obtain ⟨u0, u1⟩ := u
  match k with
  | 0 => exact congrArg₂ Two.mk h h'
  | 1 => exact congrArg₂ Two.mk h' h

@[simp] theorem Two.get_set_of_other {α : Type} (t : Two α) (k : Fin 2) (v : α) : (t.set (1 - k) v).get k = t.get k :=
  Two.get_set_of_ne t v (other_ne k).symm

end Sys2Proof

namespace Sys2Proof.Machine

open Sys2Proof

/-! ## The ends of `DNEXT` and `DWAIT` (R204, R205) -/

theorem exec_dnext (b : BufId) (s : State) :
    exec (.dnext b) s = conclude s ((s.nextTransfer b).map fun p => (.buffer p.1, p.2)) := rfl

section
variable {b : BufId} {s : State}

theorem nextTransfer_of_none (hcnt : s.cnt = 0) : s.nextTransfer b = .error ⟨.protocolViolation, .dnext⟩ := if_pos hcnt

theorem nextTransfer_of_engine (hcnt : s.cnt ≠ 0) (hb : s.owner.get b = .E) :
    s.nextTransfer b = .error ⟨.ownershipViolation, .dnext⟩ := by
  rw [State.nextTransfer, if_neg hcnt, if_pos hb]

theorem nextTransfer_of_busy (hcnt : s.cnt = 2) (hb : s.owner.get b = .P) (hhead : (s.slot.get s.head).st ≠ .done) :
    s.nextTransfer b = .error ⟨.protocolViolation, .dnext⟩ := by
  simp [State.nextTransfer, hcnt, hb, hhead]

/-- Arming slot `k` while the other slot is not idle: `KICK` leaves it armed behind a running transfer and starts it behind a
finished one. -/
theorem kickSlots_set_armed (head : Fin 2) {sl : Two Slot} {k : Fin 2} (hother : (sl.get (1 - k)).st ≠ .idle) :
    kickSlots head (sl.set k ⟨.idle, some b, 0⟩) =
      sl.set k ⟨if (sl.get (1 - k)).st = .running then .idle else .running, some b, 0⟩ := by
  by_cases hrun : (sl.get (1 - k)).st = .running
  · rw [if_pos hrun]
    exact kickSlots_of_running head (k := 1 - k) (by simpa using hrun)
  · have hdone : (sl.get (1 - k)).st = .done := by
      cases hst : (sl.get (1 - k)).st with
      | idle => exact absurd hst hother
      | running => exact absurd hst hrun
      | done => rfl
    obtain ⟨hsame, hstart⟩ := kickSlots_after_done head (sl := sl.set k ⟨.idle, some b, 0⟩) (k := 1 - k)
      (by simpa using hdone) (by simp)
    rw [other_other] at hstart
    rw [if_neg hrun]
    refine Two.eq_of_get k ?_ ?_
    · simpa [Slot.armed] using hstart
    · simpa using hsame

/-- R204 case A. -/
theorem nextTransfer_of_one (hcnt : s.cnt = 1) (hb : s.owner.get b = .P) (hhead : (s.slot.get s.head).st ≠ .idle) :
    s.nextTransfer b = .ok (none, { s with
      owner := s.owner.set b .E
      slot := s.slot.set (1 - s.head)
        ⟨if (s.slot.get s.head).st = .running then .idle else .running, some b, 0⟩
      cnt := 2 }) := by
  have hkick := kickSlots_set_armed (b := b) s.head (sl := s.slot) (k := 1 - s.head) (by rwa [other_other])
  rw [other_other] at hkick
  simp [State.nextTransfer, State.bindNext, State.kick, State.setOwner, State.setSlot, hcnt, hb, hkick]

/-- R204 case B. -/
theorem nextTransfer_of_two (hcnt : s.cnt = 2) (hb : s.owner.get b = .P) (hhead : (s.slot.get s.head).st = .done)
    (hother : (s.slot.get (1 - s.head)).st ≠ .idle) :
    s.nextTransfer b = .ok ((s.slot.get s.head).buf, { s with
      owner := (releaseOwner s.owner (s.slot.get s.head).buf).set b .E
      slot := s.slot.set s.head
        ⟨if (s.slot.get (1 - s.head)).st = .running then .idle else .running, some b, 0⟩
      head := 1 - s.head }) := by
  have hkick := kickSlots_set_armed (b := b) (1 - s.head) hother
  simp [State.nextTransfer, State.swapNext, State.kick, State.setOwner, State.setSlot, State.reclaimOwner, hcnt, hb,
    hhead, hkick]

end

/-- Settles O29. -/
theorem dnextBindsTheOtherSlot : Obligations.DnextBindsTheOtherSlot := by
  intro b s hcnt hb hhead
  rw [exec_dnext, nextTransfer_of_one hcnt hb hhead]
  rfl

/-- Settles O30. -/
theorem dnextReclaimsTheOldest : Obligations.DnextReclaimsTheOldest := by
  intro b old s hcnt hb hhead hold hother
  rw [exec_dnext, nextTransfer_of_two hcnt hb hhead hother, hold]
  rfl

/-- Settles O31. -/
theorem dnextFaultsInOrder : Obligations.DnextFaultsInOrder := by
  intro b s
  refine ⟨fun hcnt => ?_, fun ⟨hcnt, hb⟩ => ?_, fun ⟨hcnt, hb, hhead⟩ => ?_⟩
  · rw [exec_dnext, nextTransfer_of_none hcnt]
    rfl
  · rw [exec_dnext, nextTransfer_of_engine hcnt hb]
    rfl
  · rw [exec_dnext, nextTransfer_of_busy hcnt hb hhead]
    rfl

theorem State.waitHeld_iff (s : State) : s.waitHeld = true ↔ s.cnt ≠ 0 ∧ (s.slot.get s.head).st ≠ .done := by
  simp [State.waitHeld]

theorem exec_dwait_of_held {s : State} (h : s.waitHeld = true) : exec .dwait s = .next { s with result := .held } :=
  if_pos h

theorem exec_dwait_of_not_held {s : State} (h : ¬ s.waitHeld = true) :
    exec .dwait s = conclude s (s.reclaim.map fun p => (.buffer p.1, p.2)) := if_neg h

theorem reclaim_of_none {s : State} (hcnt : s.cnt = 0) : s.reclaim = .error ⟨.protocolViolation, .dwait⟩ := if_pos hcnt

theorem reclaim_of_some {s : State} (hcnt : s.cnt ≠ 0) :
    s.reclaim = .ok ((s.slot.get s.head).buf, { s with
      owner := releaseOwner s.owner (s.slot.get s.head).buf
      slot := s.slot.set s.head Slot.empty
      head := 1 - s.head
      cnt := s.cnt - 1 }) := if_neg hcnt

theorem val_pred_add_one {c : Fin 3} (hc : c ≠ 0) : (c - 1).val + 1 = c.val := by
  revert c
  decide

/-- Settles O32. -/
theorem dwaitReclaimsWithoutReplacement : Obligations.DwaitReclaimsWithoutReplacement := by
  intro s
  refine ⟨fun hcnt => ?_, fun hheld => exec_dwait_of_held (s.waitHeld_iff.2 hheld), fun old ⟨hcnt, hdone, hold⟩ => ?_⟩
  · rw [exec_dwait_of_not_held fun h => (s.waitHeld_iff.1 h).1 hcnt, reclaim_of_none hcnt]
    rfl
  · refine ⟨s.cnt - 1, val_pred_add_one hcnt, ?_⟩
    rw [exec_dwait_of_not_held fun h => (s.waitHeld_iff.1 h).2 hdone, reclaim_of_some hcnt, hold]
    rfl

/-- Settles O34: the cases of `execDxfer_eq` that do not hold have a running slot and room. -/
theorem dxferHoldsWithoutWork : Obligations.DxferHoldsWithoutWork := by
  intro s hidle
  have hnowork : ∀ k, s.runningSlot = some k → ¬ s.fifo.length < s.cfg.fifoDepth := fun k hrun => by
    rcases hidle with hrest | hfull
    · exact absurd (runningSlot_running hrun) (hrest k)
    · exact not_lt.2 hfull
  change execDxfer s = _
  rcases execDxfer_eq s with ⟨-, he⟩ | ⟨k, _, hrun, hroom, -⟩ | ⟨k, hrun, hroom, -⟩ | ⟨k, hrun, hroom, -⟩
  · rw [he]
    rfl
  all_goals exact absurd hroom (hnowork k hrun)

end Sys2Proof.Machine
end

section
/-! SUPPORT. The invariant of the transfer engine (`44_transfer_engine.md` R206) as the six shapes its slots can have, seen from
the oldest transfer, and how each command, `KICK` and `DXFER` move from shape to shape. -/
namespace Sys2Proof.Machine

open Sys2Proof

/-! ## The six shapes -/

/-- What the seven items of R206 leave possible for `CNT`, the slot of the oldest transfer and the other slot, in buffers of `n`
words. -/
inductive EngineShape (n : Nat) : Fin 3 → Slot → Slot → Prop
  | free : EngineShape n 0 Slot.empty Slot.empty
  | running {b : BufId} {i : Nat} (hi : i < n) : EngineShape n 1 ⟨.running, some b, i⟩ Slot.empty
  | done {b : BufId} : EngineShape n 1 ⟨.done, some b, n⟩ Slot.empty
  | runningArmed {b c : BufId} {i : Nat} (hne : b ≠ c) (hi : i < n) :
    EngineShape n 2 ⟨.running, some b, i⟩ ⟨.idle, some c, 0⟩
  | doneRunning {b c : BufId} {i : Nat} (hne : b ≠ c) (hi : i < n) :
    EngineShape n 2 ⟨.done, some b, n⟩ ⟨.running, some c, i⟩
  | doneDone {b c : BufId} (hne : b ≠ c) : EngineShape n 2 ⟨.done, some b, n⟩ ⟨.done, some c, n⟩

/-- Item 7 of R206 for one slot. -/
abbrev Slot.IndexOk (n : Nat) (v : Slot) : Prop :=
  (v.st = .done ↔ v.idx = n) ∧ (v.st = .running → v.idx < n) ∧ (v.armed = true → v.idx = 0)

/-- The items of R206 that speak of slots, for the slot `v` of the oldest transfer and the other slot `w`. -/
structure SlotItems (n : Nat) (cnt : Fin 3) (v w : Slot) : Prop where
  oneRunning : ¬ (v.st = .running ∧ w.st = .running)
  armedBehind : (v.armed = true → w.st = .running) ∧ (w.armed = true → v.st = .running)
  count : cnt.val = (if v.buf.isSome then 1 else 0) + (if w.buf.isSome then 1 else 0)
  oldest : (cnt = 1 → v.st ≠ .idle ∧ w = Slot.empty) ∧ (cnt = 0 → v = Slot.empty ∧ w = Slot.empty)
  pair : cnt = 2 → (v.st = .running ∧ w.st = .idle) ∨ (v.st = .done ∧ w.st = .running) ∨ (v.st = .done ∧ w.st = .done)
  apart : ∀ b : BufId, ¬ (v.buf = some b ∧ w.buf = some b)
  index : v.IndexOk n ∧ w.IndexOk n

/-- The engine owns exactly the buffers bound to one of two slots (R206 item 6). -/
abbrev OwnsBound (o : Three Owner) (v w : Slot) : Prop := ∀ b : BufId, o.get b = .E ↔ v.buf = some b ∨ w.buf = some b

/-- A statement about two slots that does not depend on their order can be read from the oldest transfer. -/
theorem slots_iff_from_head {p : Slot → Slot → Prop} (hsymm : ∀ v w, p v w → p w v) (sl : Two Slot) (head : Fin 2) :
    p (sl.get 0) (sl.get 1) ↔ p (sl.get head) (sl.get (1 - head)) := by
  match head with
  | 0 => exact Iff.rfl
  | 1 => exact ⟨hsymm _ _, hsymm _ _⟩

theorem forall_slot_iff_from_head {p : Fin 2 → Prop} (head : Fin 2) : (∀ k, p k) ↔ p head ∧ p (1 - head) := by
  constructor
  · exact fun h => ⟨h _, h _⟩
  · rintro ⟨hhead, hother⟩ k
    rcases eq_or_eq_other head k with rfl | rfl
    · exact hhead
    · exact hother

/-- R206 read from the oldest transfer. -/
theorem engineInv_iff_items (s : State) :
    EngineInv s ↔ SlotItems s.cfg.bufWords s.cnt (s.slot.get s.head) (s.slot.get (1 - s.head)) ∧
      OwnsBound s.owner (s.slot.get s.head) (s.slot.get (1 - s.head)) := by
  have hrun := slots_iff_from_head (p := fun v w => ¬ (v.st = .running ∧ w.st = .running))
    (fun _ _ h => mt And.symm h) s.slot s.head
  have harmed := forall_slot_iff_from_head
    (p := fun k => (s.slot.get k).armed = true → (s.slot.get (1 - k)).st = .running) s.head
  have hcount := slots_iff_from_head (p := fun v w =>
    s.cnt.val = (if v.buf.isSome then 1 else 0) + (if w.buf.isSome then 1 else 0))
    (fun _ _ h => h.trans (Nat.add_comm _ _)) s.slot s.head
  have hempty := slots_iff_from_head (p := fun v w => v = Slot.empty ∧ w = Slot.empty)
    (fun _ _ => And.symm) s.slot s.head
  have howns := slots_iff_from_head (p := fun v w => OwnsBound s.owner v w)
    (fun _ _ h b => (h b).trans or_comm) s.slot s.head
  have hapart := slots_iff_from_head (p := fun v w => ∀ b : BufId, ¬ (v.buf = some b ∧ w.buf = some b))
    (fun _ _ h b => mt And.symm (h b)) s.slot s.head
  have hindex := forall_slot_iff_from_head (p := fun k => (s.slot.get k).IndexOk s.cfg.bufWords) s.head
  rw [other_other] at harmed
  constructor
  · rintro ⟨h1, h2, h3, ⟨h4, h4'⟩, h5, ⟨h6, h6'⟩, h7⟩
    exact ⟨⟨hrun.1 h1, harmed.1 h2, hcount.1 h3, ⟨h4, fun h => hempty.1 (h4' h)⟩, h5, hapart.1 h6', hindex.1 h7⟩,
      howns.1 h6⟩
  · rintro ⟨⟨h1, h2, h3, ⟨h4, h4'⟩, h5, h6', h7⟩, h6⟩
    exact ⟨hrun.2 h1, harmed.2 h2, hcount.2 h3, ⟨h4, fun h => hempty.2 (h4' h)⟩, h5, ⟨howns.2 h6, hapart.2 h6'⟩,
      hindex.2 h7⟩

section
variable {n : Nat} {v : Slot} {b : BufId}

theorem Slot.indexOk_empty (hn : 0 < n) : Slot.empty.IndexOk n := by
  have hne : (0 : Nat) ≠ n := by omega
  simp [Slot.IndexOk, Slot.empty, Slot.armed, hne]

theorem Slot.indexOk_armed (hn : 0 < n) : (⟨.idle, some b, 0⟩ : Slot).IndexOk n := by
  have hne : (0 : Nat) ≠ n := by omega
  simp [Slot.IndexOk, Slot.armed, hne]

theorem Slot.indexOk_running {i : Nat} (hi : i < n) : (⟨.running, some b, i⟩ : Slot).IndexOk n := by
  have hne : i ≠ n := by omega
  simp [Slot.IndexOk, Slot.armed, hne, hi]

theorem Slot.indexOk_done : (⟨.done, some b, n⟩ : Slot).IndexOk n := by
  simp [Slot.IndexOk, Slot.armed]

theorem Slot.IndexOk.eq_armed (h : v.IndexOk n) (hst : v.st = .idle) (hbuf : v.buf = some b) :
    v = ⟨.idle, some b, 0⟩ := by
  obtain ⟨st, buf, idx⟩ := v
  obtain rfl : st = .idle := hst
  obtain rfl : buf = some b := hbuf
  obtain rfl : idx = 0 := h.2.2 rfl
  rfl

theorem Slot.IndexOk.eq_running (h : v.IndexOk n) (hst : v.st = .running) (hbuf : v.buf = some b) :
    ∃ i < n, v = ⟨.running, some b, i⟩ := by
  obtain ⟨st, buf, idx⟩ := v
  obtain rfl : st = .running := hst
  obtain rfl : buf = some b := hbuf
  exact ⟨idx, h.2.1 rfl, rfl⟩

theorem Slot.IndexOk.eq_done (h : v.IndexOk n) (hst : v.st = .done) (hbuf : v.buf = some b) :
    v = ⟨.done, some b, n⟩ := by
  obtain ⟨st, buf, idx⟩ := v
  obtain rfl : st = .done := hst
  obtain rfl : buf = some b := hbuf
  obtain rfl : idx = n := h.1.1 rfl
  rfl

end

/-- With one transfer counted and the other slot empty, the oldest has a buffer. -/
theorem exists_buf_of_count_one {v : Slot}
    (h : (1 : Fin 3).val = (if v.buf.isSome then 1 else 0) + (if Slot.empty.buf.isSome then 1 else 0)) :
    ∃ b, v.buf = some b := by
  rcases hbuf : v.buf with _ | b
  · simp [hbuf, Slot.empty] at h
  · exact ⟨b, rfl⟩

/-- With two transfers counted, both slots have a buffer. -/
theorem exists_buf_of_count_two {v w : Slot}
    (h : (2 : Fin 3).val = (if v.buf.isSome then 1 else 0) + (if w.buf.isSome then 1 else 0)) :
    ∃ b c, v.buf = some b ∧ w.buf = some c := by
  rcases hv : v.buf with _ | b <;> rcases hw : w.buf with _ | c <;> simp [hv, hw] at h
  exact ⟨b, c, rfl, rfl⟩

theorem SlotItems.shape {n : Nat} {cnt : Fin 3} {v w : Slot} (h : SlotItems n cnt v w) : EngineShape n cnt v w := by
  obtain ⟨-, -, hcount, ⟨hone, hnone⟩, hpair, hapart, hv, hw⟩ := h
  match cnt with
  | 0 =>
    obtain ⟨rfl, rfl⟩ := hnone rfl
    exact .free
  | 1 =>
    obtain ⟨hst, rfl⟩ := hone rfl
    obtain ⟨b, hb⟩ := exists_buf_of_count_one hcount
    cases hvst : v.st with
    | idle => exact absurd hvst hst
    | running =>
      obtain ⟨i, hi, rfl⟩ := hv.eq_running hvst hb
      exact .running hi
    | done =>
      rw [hv.eq_done hvst hb]
      exact .done
  | 2 =>
    obtain ⟨b, c, hb, hc⟩ := exists_buf_of_count_two hcount
    have hne : b ≠ c := fun hbc => hapart b ⟨hb, hbc ▸ hc⟩
    rcases hpair rfl with ⟨hvst, hwst⟩ | ⟨hvst, hwst⟩ | ⟨hvst, hwst⟩
    · obtain ⟨i, hi, rfl⟩ := hv.eq_running hvst hb
      rw [hw.eq_armed hwst hc]
      exact .runningArmed hne hi
    · obtain ⟨i, hi, rfl⟩ := hw.eq_running hwst hc
      rw [hv.eq_done hvst hb]
      exact .doneRunning hne hi
    · rw [hv.eq_done hvst hb, hw.eq_done hwst hc]
      exact .doneDone hne

theorem EngineShape.items {n : Nat} {cnt : Fin 3} {v w : Slot} (hn : 0 < n) (h : EngineShape n cnt v w) :
    SlotItems n cnt v w := by
  have hindex : v.IndexOk n ∧ w.IndexOk n := by
    cases h with
    | free => exact ⟨Slot.indexOk_empty hn, Slot.indexOk_empty hn⟩
    | running hi => exact ⟨Slot.indexOk_running hi, Slot.indexOk_empty hn⟩
    | done => exact ⟨Slot.indexOk_done, Slot.indexOk_empty hn⟩
    | runningArmed _ hi => exact ⟨Slot.indexOk_running hi, Slot.indexOk_armed hn⟩
    | doneRunning _ hi => exact ⟨Slot.indexOk_done, Slot.indexOk_running hi⟩
    | doneDone => exact ⟨Slot.indexOk_done, Slot.indexOk_done⟩
  have hapart : ∀ b : BufId, ¬ (v.buf = some b ∧ w.buf = some b) := by
    rintro b ⟨hv, hw⟩
    cases h with
    | free | running | done => cases hw
    | runningArmed hne | doneRunning hne | doneDone hne =>
      cases hv
      cases hw
      exact hne rfl
  constructor
  case apart => exact hapart
  case index => exact hindex
  all_goals cases h <;> simp [Slot.empty, Slot.armed]

/-- The invariant of the engine is one of the six shapes, with exactly the bound buffers owned by the engine. -/
theorem engineInv_iff_shape (s : State) :
    EngineInv s ↔ EngineShape s.cfg.bufWords s.cnt (s.slot.get s.head) (s.slot.get (1 - s.head)) ∧
      OwnsBound s.owner (s.slot.get s.head) (s.slot.get (1 - s.head)) := by
  rw [engineInv_iff_items]
  exact and_congr_left' ⟨SlotItems.shape, EngineShape.items s.cfg.bufWords.pos⟩

/-! ## Ownership -/

/-- Giving one more buffer to the engine (R202, R204). -/
theorem get_set_engine_iff (o : Three Owner) (b c : BufId) : (o.set b .E).get c = .E ↔ c = b ∨ o.get c = .E := by
  rw [Three.get_set]
  split
  · simp [*]
  · simp [*]

/-- Returning one buffer to the producer (R204, R205). -/
theorem get_set_producer_iff (o : Three Owner) (b c : BufId) : (o.set b .P).get c = .E ↔ c ≠ b ∧ o.get c = .E := by
  rw [Three.get_set]
  split
  · simp [*]
  · simp [*]

/-! ## The commands -/

theorem startTransfer_keeps_engineInv {s t : State} {b : BufId} (hs : EngineInv s) (h : s.startTransfer b = .ok t) :
    EngineInv t := by
  rcases startTransfer_eq s b with ⟨-, he⟩ | ⟨-, -, he⟩ | ⟨hcnt, -, he⟩ <;> rw [he] at h <;> cases h
  rw [engineInv_iff_shape] at hs ⊢
  obtain ⟨hshape, howns⟩ := hs
  rw [hcnt] at hshape
  generalize hv : s.slot.get s.head = v at hshape howns
  generalize hw : s.slot.get (1 - s.head) = w at hshape howns
  cases hshape
  simp only [Two.get_set_same, Two.get_set_other, hw]
  refine ⟨.running s.cfg.bufWords.pos, fun c => ?_⟩
  rw [get_set_engine_iff, howns]
  simp [Slot.empty, eq_comm]

/-- Of two bound buffers the one that is not reclaimed stays. -/
theorem bound_without_oldest_iff {b d : BufId} (hne : b ≠ d) (c : BufId) :
    c ≠ b ∧ (some b = some c ∨ some d = some c) ↔ some d = some c := by
  constructor
  · rintro ⟨hcb, hbc | hdc⟩
    · exact absurd (Option.some.inj hbc).symm hcb
    · exact hdc
  · intro hdc
    obtain rfl := Option.some.inj hdc
    exact ⟨hne.symm, .inr rfl⟩

/-- A buffer that the producer owns is bound to no slot. -/
theorem OwnsBound.not_bound {o : Three Owner} {v w : Slot} {b : BufId} (h : OwnsBound o v w) (hb : o.get b = .P) :
    v.buf ≠ some b ∧ w.buf ≠ some b := by
  have hne : o.get b ≠ .E := by simp [hb]
  rw [Ne, h b, not_or] at hne
  exact hne

/-- `DNEXT` on the two shapes with one transfer outstanding. -/
theorem nextTransfer_one_keeps_engineInv {s t : State} {b : BufId} {old : Option BufId} (hs : EngineInv s)
    (hcnt : s.cnt = 1) (hb : s.owner.get b = .P) (h : s.nextTransfer b = .ok (old, t)) : EngineInv t := by
  rw [engineInv_iff_shape] at hs ⊢
  obtain ⟨hshape, howns⟩ := hs
  rw [hcnt] at hshape
  have hhead : (s.slot.get s.head).st ≠ .idle := by
    generalize s.slot.get s.head = v at hshape
    generalize s.slot.get (1 - s.head) = w at hshape
    cases hshape <;> simp
  rw [nextTransfer_of_one hcnt hb hhead] at h
  cases h
  obtain ⟨hfresh, -⟩ := howns.not_bound hb
  simp only [Two.get_set_same, Two.get_set_of_other]
  generalize s.slot.get s.head = v at hshape howns hfresh ⊢
  generalize s.slot.get (1 - s.head) = w at hshape howns
  constructor
  · cases hshape with
    | running hi => exact .runningArmed (by simpa using hfresh) hi
    | done => exact .doneRunning (by simpa using hfresh) s.cfg.bufWords.pos
  · intro c
    rw [get_set_engine_iff, howns]
    cases hshape <;> simp [Slot.empty, or_comm, eq_comm]

/-- `DNEXT` on the shapes with two transfers outstanding and the oldest done. -/
theorem nextTransfer_two_keeps_engineInv {s t : State} {b : BufId} {old : Option BufId} (hs : EngineInv s)
    (hcnt : s.cnt = 2) (hb : s.owner.get b = .P) (hhead : (s.slot.get s.head).st = .done)
    (h : s.nextTransfer b = .ok (old, t)) : EngineInv t := by
  rw [engineInv_iff_shape] at hs ⊢
  obtain ⟨hshape, howns⟩ := hs
  rw [hcnt] at hshape
  have hother : (s.slot.get (1 - s.head)).st ≠ .idle := by
    generalize s.slot.get s.head = v at hshape hhead
    generalize s.slot.get (1 - s.head) = w at hshape
    cases hshape <;> simp_all
  rw [nextTransfer_of_two hcnt hb hhead hother] at h
  cases h
  obtain ⟨-, hfresh⟩ := howns.not_bound hb
  simp only [Two.get_set_same, Two.get_set_other, other_other, hcnt]
  generalize s.slot.get s.head = v at hshape howns hhead ⊢
  generalize s.slot.get (1 - s.head) = w at hshape howns hfresh ⊢
  constructor
  · cases hshape with
    | runningArmed => cases hhead
    | doneRunning _ hi => exact .runningArmed (by simpa using hfresh) hi
    | doneDone => exact .doneRunning (by simpa using hfresh) s.cfg.bufWords.pos
  · intro c
    rw [get_set_engine_iff]
    cases hshape with
    | runningArmed => cases hhead
    | doneRunning hne | doneDone hne =>
      rw [releaseOwner, get_set_producer_iff, howns, bound_without_oldest_iff hne]
      simp [or_comm, eq_comm]

theorem nextTransfer_keeps_engineInv {s t : State} {b : BufId} {old : Option BufId} (hs : EngineInv s)
    (h : s.nextTransfer b = .ok (old, t)) : EngineInv t := by
  rcases nextTransfer_eq s b with ⟨-, he⟩ | ⟨-, -, he⟩ | ⟨hcnt, hb, -⟩ | ⟨-, -, -, he⟩ | ⟨hcnt, hb, hhead, -⟩
  case inl | inr.inl | inr.inr.inr.inl =>
    rw [he] at h
    cases h
  · exact nextTransfer_one_keeps_engineInv hs hcnt hb h
  · exact nextTransfer_two_keeps_engineInv hs hcnt hb hhead h

theorem reclaim_keeps_engineInv {s t : State} {old : Option BufId} (hs : EngineInv s) (hwait : ¬ s.waitHeld = true)
    (h : s.reclaim = .ok (old, t)) : EngineInv t := by
  rcases reclaim_eq s with ⟨-, he⟩ | ⟨hcnt, he⟩ <;> rw [he] at h <;> cases h
  have hhead : (s.slot.get s.head).st = .done := by
    rw [s.waitHeld_iff] at hwait
    exact not_not.1 fun hne => hwait ⟨hcnt, hne⟩
  rw [engineInv_iff_shape] at hs ⊢
  obtain ⟨hshape, howns⟩ := hs
  simp only [Two.get_set_same, Two.get_set_other, other_other]
  generalize s.slot.get s.head = v at hshape howns hhead ⊢
  generalize s.slot.get (1 - s.head) = w at hshape howns ⊢
  generalize s.cnt = n at hshape hcnt ⊢
  cases hshape with
  | free => exact absurd rfl hcnt
  | running | runningArmed => cases hhead
  | done => 
    refine ⟨.free, fun c => ?_⟩
    rw [releaseOwner, get_set_producer_iff, howns]
    simp [Slot.empty, eq_comm]
  | doneRunning hne hi =>
    refine ⟨.running hi, fun c => ?_⟩
    rw [releaseOwner, get_set_producer_iff, howns, bound_without_oldest_iff hne]
    simp [Slot.empty]
  | doneDone hne =>
    refine ⟨.done, fun c => ?_⟩
    rw [releaseOwner, get_set_producer_iff, howns, bound_without_oldest_iff hne]
    simp [Slot.empty]

theorem Command.engineInv {s t : State} (h : Command s t) (hs : EngineInv s) : EngineInv t := by
  cases h with
  | start h => exact startTransfer_keeps_engineInv hs h
  | next h => exact nextTransfer_keeps_engineInv hs h
  | wait hwait h => exact reclaim_keeps_engineInv hs hwait h

/-! ## `KICK` and `DXFER` -/

/-- In every state that satisfies R206 an armed slot stands behind a running one, so `KICK` starts nothing. -/
theorem kickSlots_of_engineInv {s : State} (hs : EngineInv s) : kickSlots s.head s.slot = s.slot := by
  obtain ⟨-, harmed, -⟩ := hs
  by_cases hrun : ∃ k, (s.slot.get k).st = .running
  · obtain ⟨k, hk⟩ := hrun
    exact kickSlots_of_running s.head hk
  · have hrest : ∀ k, (s.slot.get k).st ≠ .running := not_exists.1 hrun
    have hsame : ∀ k, (kickSlots s.head s.slot).get k = s.slot.get k := fun k => by
      rw [kickSlots_get hrest, if_neg fun h => hrest _ (harmed k h.1)]
    exact Two.eq_of_get 0 (hsame 0) (hsame 1)

/-- A word moved by the oldest transfer. -/
theorem EngineShape.advance_oldest {n i : Nat} {cnt : Fin 3} {b : BufId} {w : Slot}
    (h : EngineShape n cnt ⟨.running, some b, i⟩ w) :
    EngineShape n cnt ⟨if i + 1 = n then .done else .running, some b, i + 1⟩
      (if i + 1 = n ∧ w.armed = true then ⟨.running, w.buf, 0⟩ else w) := by
  by_cases hlast : i + 1 = n
  · subst hlast
    cases h with
    | running => simpa [Slot.armed, Slot.empty] using EngineShape.done
    | runningArmed hne => simpa [Slot.armed] using EngineShape.doneRunning hne (Nat.succ_pos i)
  · cases h with
    | running hi => simpa [hlast] using EngineShape.running (by omega)
    | runningArmed hne hi => simpa [hlast] using EngineShape.runningArmed hne (by omega)

/-- A word moved by the other transfer, behind a finished one. -/
theorem EngineShape.advance_other {n i : Nat} {cnt : Fin 3} {b : BufId} {v : Slot}
    (h : EngineShape n cnt v ⟨.running, some b, i⟩) :
    EngineShape n cnt (if i + 1 = n ∧ v.armed = true then ⟨.running, v.buf, 0⟩ else v)
      ⟨if i + 1 = n then .done else .running, some b, i + 1⟩ := by
  cases h with
  | doneRunning hne hi =>
    by_cases hlast : i + 1 = n
    · subst hlast
      simpa [Slot.armed] using EngineShape.doneDone hne
    · simpa [hlast] using EngineShape.doneRunning hne (by omega)

/-- R206 item 1, for the slot that runs. -/
theorem other_not_running {s : State} {k : Fin 2} (hs : EngineInv s) (hk : (s.slot.get k).st = .running) :
    (s.slot.get (1 - k)).st ≠ .running := by
  obtain ⟨hone, -⟩ := hs
  have hpair := (slots_iff_from_head (p := fun v w => ¬ (v.st = .running ∧ w.st = .running))
    (fun _ _ h => mt And.symm h) s.slot k).1 hone
  exact fun hother => hpair ⟨hk, hother⟩

/-- Moving a word binds no slot to another buffer. -/
theorem advanceSlots_buf {s : State} {k : Fin 2} (hk : (s.slot.get k).st = .running)
    (hother : (s.slot.get (1 - k)).st ≠ .running) (j : Fin 2) :
    ((s.advanceSlots k).get j).buf = (s.slot.get j).buf := by
  rcases eq_or_eq_other k j with rfl | rfl
  · rw [advanceSlots_get_same hk hother]
  · rw [advanceSlots_get_other hother]
    split <;> rfl

theorem moveWord_keeps_engineInv {s : State} {k : Fin 2} {b : BufId} (hs : EngineInv s)
    (hrun : s.runningSlot = some k) (hbuf : (s.slot.get k).buf = some b) : EngineInv (s.moveWord k b) := by
  have hk := runningSlot_running hrun
  have hother := other_not_running hs hk
  have hv : s.slot.get k = ⟨.running, some b, (s.slot.get k).idx⟩ := by rw [← hk, ← hbuf]
  have hsame := advanceSlots_get_same hk hother
  have hnext := advanceSlots_get_other hother
  rw [hbuf] at hsame
  rw [engineInv_iff_shape] at hs ⊢
  obtain ⟨hshape, howns⟩ := hs
  constructor
  · change EngineShape s.cfg.bufWords s.cnt ((s.advanceSlots k).get s.head) ((s.advanceSlots k).get (1 - s.head))
    rcases eq_or_eq_other s.head k with rfl | rfl
    · rw [hv] at hshape
      rw [hsame, hnext]
      exact hshape.advance_oldest
    · rw [hv] at hshape
      rw [other_other] at hnext
      rw [hsame, hnext]
      exact hshape.advance_other
  · intro c
    simp only [State.moveWord, advanceSlots_buf hk hother]
    exact howns c

/-! ## Every step -/

theorem Effect.engineInv {s t : State} (h : Effect s t) (hs : EngineInv s) : EngineInv t := by
  cases h with
  | pipeline h =>
    rw [h.frame]
    exact hs
  | command h sched r => exact h.engineInv hs
  | move hrun hbuf => exact moveWord_keeps_engineInv hs hrun hbuf
  | kick =>
    have hkick : s.kick = s := congrArg (fun sl => ({ s with slot := sl } : State)) (kickSlots_of_engineInv hs)
    rw [hkick]
    exact hs
  | tick =>
    rw [s.tick_frame.1]
    exact hs

theorem engineInv_applyReset (s : State) : EngineInv s.applyReset := by
  rw [engineInv_iff_shape]
  refine ⟨.free, fun b => ?_⟩
  match b with
  | 0 | 1 | 2 => simp [Three.get, Two.get, Slot.empty]

/-- Settles O36: every effect moves between the six shapes, and `RESET` gives the free one. -/
theorem engineInvKeptByEveryStep : Obligations.EngineInvKeptByEveryStep :=
  fun _ _ => step_keeps (fun _ _ h => h) (fun _ _ h => h) (fun _ _ => Effect.engineInv) (fun s _ => engineInv_applyReset s)

end Sys2Proof.Machine
end

section
/-! SUPPORT. Samples that complete and fills (`40_fixed_point.md` R128, `43_pack_fill.md` R182 to R184): what `BQCOMP` depends
on, when it cannot overflow, `FILL` beside its steps done by hand, and from that the statements. -/
namespace Sys2Proof.Machine

open Sys2Proof

/-! ## Single operations (R61, R141) -/

theorem exec_rngseed (seed : BitVec 64) (s : State) :
    exec (.rngseed seed) s = conclude s ((s.seedRng seed).map fun t => (.unit, t)) := rfl

/-- Settles O7: only the pair of XS64 and seed 0 is refused. -/
theorem rngseedSeedsTheSource : Obligations.RngseedSeedsTheSource := by
  intro seed s
  refine ⟨fun ⟨hrng, hseed⟩ => ?_, fun hbad => ?_, fun hrng => ?_⟩
  · rw [exec_rngseed, State.seedRng, if_neg fun h => hseed h.2, hrng]
    rfl
  · rw [exec_rngseed, State.seedRng, if_pos hbad]
    rfl
  · have hgood : ¬ (s.cfg.rng = .xs64 ∧ seed = 0) := fun h => by simp [hrng] at h
    rw [exec_rngseed, State.seedRng, if_neg hgood, hrng]
    rfl

/-- Settles O23. -/
theorem bufwrRefusesMissingAddress : Obligations.BufwrRefusesMissingAddress :=
  fun _ _ _ _ hi => if_neg (not_lt.2 hi)

/-! ## What `BQCOMP` depends on (R166) -/

theorem biquadStep_congr {c d : Config} (h0 : c.cB0 = d.cB0) (h1 : c.cB1 = d.cB1) (h2 : c.cB2 = d.cB2)
    (h3 : c.cA1 = d.cA1) (h4 : c.cA2 = d.cA2) (f : FilterState) (x : FX) : biquadStep c f x = biquadStep d f x := by
  rw [biquadStep_eq_bind, biquadStep_eq_bind, h0, h1, h2, h3, h4]

/-- Settles O17: both states take the same filter step. -/
theorem bqcompDependsOnFilterAndCoefficientsOnly : Obligations.BqcompDependsOnFilterAndCoefficientsOnly := by
  intro x s u hfilt h0 h1 h2 h3 h4
  have hstep : biquadStep u.cfg u.filt x = biquadStep s.cfg s.filt x := by
    rw [biquadStep_congr h0 h1 h2 h3 h4, hfilt]
  rcases hs : biquadStep s.cfg s.filt x with _ | ⟨f, y⟩
  · exact ⟨_, _, exec_bqcomp_of_none hs, exec_bqcomp_of_none (hstep.trans hs), hfilt, rfl⟩
  · exact ⟨_, _, exec_bqcomp_of_some hs, exec_bqcomp_of_some (hstep.trans hs), rfl, rfl⟩

/-! ## When a sample cannot overflow (R128, R148) -/

/-- An FX value of magnitude below 2^28 (R128). -/
abbrev SmallFx (v : FX) : Prop := -268435456 < v.toInt ∧ v.toInt < 268435456

/-- The constants of the noise generator and of the filter's inputs have their default values (R91). -/
abbrev InputDefaults (c : Config) : Prop :=
  ({ c with cA1 := Config.default.cA1, cA2 := Config.default.cA2 } : Config).DefaultConstants

theorem Config.DefaultConstants.inputDefaults {c : Config} (h : c.DefaultConstants) : InputDefaults c := by
  obtain ⟨h0, h1, h2, -, -, hrest⟩ := h
  exact ⟨h0, h1, h2, rfl, rfl, hrest⟩

theorem InputDefaults.toInt {c : Config} (h : InputDefaults c) :
    c.cB0.toInt = 272 ∧ c.cB1.toInt = 0 ∧ c.cB2.toInt = -272 := by
  obtain ⟨h0, h1, h2, -⟩ := h
  rw [show c.cB0 = _ from h0, show c.cB1 = _ from h1, show c.cB2 = _ from h2]
  decide

/-- The filter step answers for a brown-noise sample, when the inputs in the history are small and the two feedback products
are bounded as the default coefficients bound them for small outputs. -/
theorem biquadStep_of_small {c : Config} {f : FilterState} {x : FX} {m3 m4 : Int} (hc : InputDefaults c)
    (hx : -4096 ≤ x.toInt ∧ x.toInt ≤ 4095) (hhist : SmallFx (f.xHist.get (f.xCur - 2)))
    (h3 : IsFloor m3 (c.cA1.toInt * (f.yHist.get (f.yCur - 1)).toInt)) (hb3 : -600000000 ≤ m3 ∧ m3 ≤ 600000000)
    (h4 : IsFloor m4 (c.cA2.toInt * (f.yHist.get (f.yCur - 2)).toInt)) (hb4 : -300000000 ≤ m4 ∧ m4 ≤ 300000000) :
    ∃ y : FX, biquadStep c f x = some ((f.pushX x).pushY y, y) := by
  obtain ⟨hc0, hc1, hc2⟩ := hc.toInt
  obtain ⟨m0, h0⟩ : ∃ m, IsFloor m (c.cB0.toInt * x.toInt) := ⟨_, isFloor_ediv _⟩
  obtain ⟨m1, h1⟩ : ∃ m, IsFloor m (c.cB1.toInt * (f.xHist.get (f.xCur - 1)).toInt) := ⟨_, isFloor_ediv _⟩
  obtain ⟨m2, h2⟩ : ∃ m, IsFloor m (c.cB2.toInt * (f.xHist.get (f.xCur - 2)).toInt) := ⟨_, isFloor_ediv _⟩
  have hb0 : -17 ≤ m0 ∧ m0 ≤ 17 := by
    rw [hc0] at h0
    omega
  have hb1 : m1 = 0 := by
    rw [hc1, zero_mul] at h1
    omega
  have hb2 : -1114113 ≤ m2 ∧ m2 ≤ 1114113 := by
    rw [hc2] at h2
    omega
  have hfits : BiquadInFx m0 m1 m2 m3 m4 := by
    subst hb1
    simp only [BiquadInFx, biquadSum]
    omega
  obtain ⟨y, -, hstep⟩ := biquadStep_of_inFx ⟨h0, h1, h2, h3, h4⟩ hfits
  exact ⟨y, hstep⟩

theorem nextSample_of_some {s : State} {n o y : FX} {f : FilterState}
    (hbrown : brownStep s.cfg s.noiseState (whiteSample (rngNext s.rngState).2) = some (n, o))
    (hbiquad : biquadStep s.cfg s.filt o = some (f, y)) :
    s.nextSample = .ok (y, { s with rngState := (rngNext s.rngState).1, noiseState := n, filt := f }) := by
  simp [State.nextSample, hbrown, hbiquad, bind, Except.bind]

/-- The noise stage does not read the feedback coefficients, so R146 and R148 hold whatever they are. -/
theorem brownStep_of_inputDefaults {s : State} (hc : InputDefaults s.cfg) (hnoise : NoiseInv s) (r : Word) :
    ∃ n o : FX, brownStep s.cfg s.noiseState (whiteSample r) = some (n, o) ∧
      -16384 < n.toInt ∧ n.toInt < 16384 ∧ -4096 ≤ o.toInt ∧ o.toInt ≤ 4095 :=
  brownStep_whiteSample_inside hc hnoise.1 hnoise.2 r

/-- The feedback products of the default coefficients with small outputs. -/
theorem feedback_bounds {c : Config} (hc : c.DefaultConstants) {y1 y2 : FX} (hy1 : SmallFx y1) (hy2 : SmallFx y2) :
    (-600000000 ≤ c.cA1.toInt * y1.toInt / 65536 ∧ c.cA1.toInt * y1.toInt / 65536 ≤ 600000000) ∧
    (-300000000 ≤ c.cA2.toInt * y2.toInt / 65536 ∧ c.cA2.toInt * y2.toInt / 65536 ≤ 300000000) := by
  obtain ⟨-, -, -, hA1, hA2, -⟩ := hc
  have h1 : c.cA1.toInt = -130502 := by
    rw [hA1]
    decide
  have h2 : c.cA2.toInt = 64993 := by
    rw [hA2]
    decide
  rw [h1, h2]
  omega

/-- Settles O21: the noise stage stays inside the boundary, and the filter's products stay in range. -/
theorem sampleCompletesWithSmallHistory : Obligations.SampleCompletesWithSmallHistory := by
  intro s hc hnoise hx hy
  have hinputs := Config.DefaultConstants.inputDefaults hc
  obtain ⟨n, o, hbrown, -, -, ho⟩ := brownStep_of_inputDefaults hinputs hnoise (rngNext s.rngState).2
  obtain ⟨hb3, hb4⟩ := feedback_bounds hc (hy (s.filt.yCur - 1)) (hy (s.filt.yCur - 2))
  obtain ⟨y, hbiquad⟩ := biquadStep_of_small hinputs ho (hx _) (isFloor_ediv _) hb3 (isFloor_ediv _) hb4
  exact ⟨n, y, _, exec_sample_of_ok (nextSample_of_some hbrown hbiquad)⟩

/-! ## `FILL` beside its steps done by hand (R184) -/

/-- The result port is written only: what a sample or a fill step does, it does whatever the port holds. -/
theorem nextSample_ret (s : State) (r : OpResult) :
    (s.ret r).nextSample = s.nextSample.map fun p => (p.1, p.2.ret r) := by
  simp only [State.nextSample, State.ret_cfg, State.ret_rngState, State.ret_noiseState, State.ret_filt]
  rcases brownStep s.cfg s.noiseState (whiteSample (rngNext s.rngState).2) with _ | ⟨n, o⟩
  · rfl
  · change (arith .bqcomp (biquadStep s.cfg s.filt o) >>= _) = Except.map _ (arith .bqcomp (biquadStep s.cfg s.filt o) >>= _)
    rcases biquadStep s.cfg s.filt o with _ | ⟨f, y⟩ <;> rfl

theorem fillWord_ret (s : State) (r : OpResult) (b : BufId) (i : Nat) :
    (s.ret r).fillWord b i = (s.fillWord b i).map (·.ret r) := by
  rcases hsample : s.nextSample with e | ⟨y, t⟩
  · rw [fillWord_of_sample_error hsample, fillWord_of_sample_error (by rw [nextSample_ret, hsample]; rfl)]
    rfl
  · rw [fillWord_of_sample hsample,
      fillWord_of_sample (s := s.ret r) (t := t.ret r) (y := y) (by rw [nextSample_ret, hsample]; rfl)]
    exact memWrite_ret (t.noteClip y) r b i (packWord s.cfg.monoMode (q15 y).1)

theorem fillFrom_succ_of_ok {s t : State} {b : BufId} {i : Nat} (h : s.fillWord b i = .ok t) (n : Nat) :
    State.fillFrom b (n + 1) i s = State.fillFrom b n (i + 1) t := by
  rw [State.fillFrom, h]

theorem fillFrom_succ_of_error {s : State} {b : BufId} {i : Nat} {e : Raise} (h : s.fillWord b i = .error e) (n : Nat) :
    State.fillFrom b (n + 1) i s = s.takeFault e := by
  rw [State.fillFrom, h]

theorem fillFrom_ret (b : BufId) (n i : Nat) (s : State) (r : OpResult) :
    State.fillFrom b n i (s.ret r) = State.fillFrom b n i s := by
  induction n generalizing i s with
  | zero => rfl
  | succ n ih =>
    have hret := fillWord_ret s r b i
    rcases hword : s.fillWord b i with e | t
    · rw [hword] at hret
      rw [fillFrom_succ_of_error hword, fillFrom_succ_of_error hret]
      rfl
    · rw [hword] at hret
      rw [fillFrom_succ_of_ok hword, fillFrom_succ_of_ok hret]
      exact ih _ _

/-- The first step of a completed fill by hand. -/
theorem fillWord_of_fillByHand_succ {b : BufId} {n i : Nat} {s t : State} (hi : i < s.cfg.bufWords)
    (h : fillByHand b (n + 1) i s = some t) :
    ∃ u, s.fillWord b i = .ok u ∧ fillByHand b n (i + 1) (u.ret .unit) = some t := by
  rw [fillByHand_succ hi] at h
  rcases hword : s.fillWord b i with e | u
  · rw [hword] at h
    cases h
  · rw [hword] at h
    exact ⟨u, rfl, h⟩

/-- Fill steps done by hand are the first steps of a longer fill, and touch the pipeline only. -/
theorem fillFrom_after_fillByHand {b : BufId} {n i : Nat} {s t : State} (hn : i + n ≤ s.cfg.bufWords)
    (h : fillByHand b n i s = some t) :
    (∀ m, State.fillFrom b (n + m) i s = State.fillFrom b m (i + n) t) ∧
      t.owner = s.owner ∧ t.genCount = s.genCount := by
  induction n generalizing i s with
  | zero =>
    cases h
    exact ⟨fun m => by rw [Nat.zero_add, Nat.add_zero], rfl, rfl⟩
  | succ n ih =>
    obtain ⟨u, hword, hrest⟩ := fillWord_of_fillByHand_succ (by omega) h
    have hframe := fillWord_frame hword
    have hcfg : u.cfg = s.cfg := by rw [hframe]
    obtain ⟨hfill, howner, hgen⟩ := ih (by rw [State.ret_cfg, hcfg]; omega) hrest
    refine ⟨fun m => ?_, ?_, ?_⟩
    · rw [show n + 1 + m = n + m + 1 by omega, fillFrom_succ_of_ok hword, ← fillFrom_ret _ _ _ u .unit, hfill m,
        show i + 1 + n = i + (n + 1) by omega]
    · rw [howner, State.ret_owner, hframe]
    · rw [hgen, State.ret_genCount, hframe]

theorem exec_fill (b : BufId) (s : State) : exec (.fill b) s = .next (State.fillFrom b s.cfg.bufWords 0 s) := rfl

/-- Settles O24. -/
theorem fillIsNFillSteps : Obligations.FillIsNFillSteps := by
  intro b s t h
  obtain ⟨hfill, -, hgen⟩ := fillFrom_after_fillByHand (Nat.zero_add _).le h
  rw [exec_fill, ← hgen]
  exact congrArg _ (hfill 0)

/-- A fill whose step after `n` completed ones faults. -/
theorem exec_fill_of_fault {b : BufId} {n : Nat} {s t : State} {e : Raise} (hn : n < s.cfg.bufWords)
    (h : fillByHand b n 0 s = some t) (hword : t.fillWord b n = .error e) : exec (.fill b) s = .next (t.takeFault e) := by
  obtain ⟨m, hm⟩ : ∃ m, (s.cfg.bufWords : Nat) = n + (m + 1) := ⟨s.cfg.bufWords - n - 1, by omega⟩
  obtain ⟨hfill, -, -⟩ := fillFrom_after_fillByHand (by omega) h
  rw [exec_fill, hm, hfill, Nat.zero_add, fillFrom_succ_of_error hword]

/-- Settles O26: the step after the completed ones faults in its sample or in its write. -/
theorem fillFaultKeepsEarlierWords : Obligations.FillFaultKeepsEarlierWords := by
  intro b n s t u hn h
  constructor
  · intro c hsample hc
    obtain ⟨e, herr, rfl⟩ := nextSample_of_exec_sample_fault hsample hc
    cases hc
    exact exec_fill_of_fault hn h (fillWord_of_sample_error herr b n)
  · rintro howner hsample ⟨y, hy⟩
    obtain ⟨v, hok⟩ := nextSample_of_exec_sample_fx hsample hy
    obtain ⟨-, hkept, -⟩ := fillFrom_after_fillByHand (by omega) h
    exact exec_fill_of_fault hn h (fillWord_of_engine (hkept ▸ howner) hok n)

/-! ## A fill without feedback (R128, R184) -/

/-- A state in which a fill step of buffer `b` without feedback completes. -/
structure FillReady (b : BufId) (s : State) : Prop where
  inputs : InputDefaults s.cfg
  noA1 : s.cfg.cA1 = 0
  noA2 : s.cfg.cA2 = 0
  noise : NoiseInv s
  owner : s.owner.get b = .P
  history : ∀ i, SmallFx (s.filt.xHist.get i)

/-- What completed fill steps of words `i` to `i + n - 1` of buffer `b` do. -/
structure Filled (b : BufId) (i n : Nat) (s t : State) : Prop where
  ready : FillReady b t
  frame : t = { s with
    rngState := t.rngState, noiseState := t.noiseState, filt := t.filt, buf := t.buf
    status := { s.status with clip := t.status.clip } }
  otherBuffers : ∀ c, c ≠ b → t.buf.get c = s.buf.get c
  kept : ∀ j, ((s.buf.get b).read j).isSome → ((t.buf.get b).read j).isSome
  written : ∀ j, i ≤ j → j < i + n → ((t.buf.get b).read j).isSome

theorem Filled.refl {b : BufId} {s : State} (h : FillReady b s) (i : Nat) : Filled b i 0 s s :=
  ⟨h, rfl, fun _ _ => rfl, fun _ => id, fun j hlo hhi => absurd hhi (by omega)⟩

/-- One fill step, then the rest. -/
theorem Filled.trans {b : BufId} {i n : Nat} {s u t : State} (h : Filled b i 1 s u) (h' : Filled b (i + 1) n u t) :
    Filled b i (n + 1) s t := by
  refine ⟨h'.ready, ?_, fun c hc => (h'.otherBuffers c hc).trans (h.otherBuffers c hc),
    fun j hj => h'.kept j (h.kept j hj), fun j hlo hhi => ?_⟩
  · have hframe := h'.frame
    rw [h.frame] at hframe
    exact hframe
  · by_cases hj : j < i + 1
    · exact h'.kept j (h.written j hlo (by omega))
    · exact h'.written j (by omega) (by omega)

theorem smallFx_pushX {f : FilterState} {x : FX} (hx : -4096 ≤ x.toInt ∧ x.toInt ≤ 4095)
    (hf : ∀ i, SmallFx (f.xHist.get i)) (i : Fin 3) : SmallFx ((f.pushX x).xHist.get i) := by
  rw [FilterState.pushX_xHist, Three.get_set]
  split
  · exact ⟨by omega, by omega⟩
  · exact hf i

/-- Without feedback a sample completes, and the next one will: the outputs in the history are not used. -/
theorem nextSample_of_ready {b : BufId} {s : State} (h : FillReady b s) :
    ∃ y t, s.nextSample = .ok (y, t) ∧ FillReady b t := by
  obtain ⟨n, o, hbrown, hlo, hhi, ho⟩ := brownStep_of_inputDefaults h.inputs h.noise (rngNext s.rngState).2
  have hzero : ∀ (c v : FX), c = 0 → IsFloor 0 (c.toInt * v.toInt) := by
    rintro c v rfl
    simp [IsFloor]
  obtain ⟨y, hbiquad⟩ := biquadStep_of_small h.inputs ho (h.history _) (hzero _ _ h.noA1) (by decide)
    (hzero _ _ h.noA2) (by decide)
  exact ⟨y, _, nextSample_of_some hbrown hbiquad, h.inputs, h.noA1, h.noA2, ⟨hlo, hhi⟩, h.owner,
    smallFx_pushX ho h.history⟩

/-- One fill step without feedback. -/
theorem fillWord_of_ready {b : BufId} {s : State} (h : FillReady b s) (i : Nat) :
    ∃ t, s.fillWord b i = .ok t ∧ Filled b i 1 s t := by
  obtain ⟨y, u, hsample, hready⟩ := nextSample_of_ready h
  have hframe := nextSample_frame hsample
  have hbuf : u.buf = s.buf := by rw [hframe]
  have hword := fillWord_of_sample hsample b i
  rw [memWrite_of_producer (by simpa using hready.owner)] at hword
  refine ⟨_, hword, ⟨hready.inputs, hready.noA1, hready.noA2, hready.noise, hready.owner, hready.history⟩, ?_,
    fun c hc => ?_, fun j hj => ?_, fun j hlo hhi => ?_⟩
  · rw [hframe]
    rfl
  · simp only [State.noteClip_buf, Three.get_set_of_ne _ _ hc, hbuf]
  · simp only [State.noteClip_buf, Three.get_set_same, Memory.read_write, hbuf]
    split
    · rfl
    · exact hj
  · obtain rfl : j = i := by omega
    simp only [State.noteClip_buf, Three.get_set_same, Memory.read_write, if_true, Option.isSome_some]

/-- A fill without feedback completes all its steps. -/
theorem fillFrom_of_ready {b : BufId} {s : State} (h : FillReady b s) (n i : Nat) :
    ∃ t, State.fillFrom b n i s = { t with genCount := t.genCount + 1, result := .unit } ∧ Filled b i n s t := by
  induction n generalizing i s with
  | zero => exact ⟨s, rfl, .refl h i⟩
  | succ n ih =>
    obtain ⟨u, hword, hfilled⟩ := fillWord_of_ready h i
    obtain ⟨t, hfill, hrest⟩ := ih hfilled.ready (i + 1)
    exact ⟨t, by rw [fillFrom_succ_of_ok hword, hfill], hfilled.trans hrest⟩

/-- Settles O25. -/
theorem fillCompletesWithoutFeedback : Obligations.FillCompletesWithoutFeedback := by
  intro b s hinputs hA1 hA2 hnoise howner hhist
  obtain ⟨t, hfill, hfilled⟩ := fillFrom_of_ready ⟨hinputs, hA1, hA2, hnoise, howner, hhist⟩ s.cfg.bufWords 0
  have hgen : t.genCount = s.genCount := by rw [hfilled.frame]
  rw [hgen] at hfill
  exact ⟨{ t with genCount := s.genCount + 1, result := .unit }, congrArg Host.Outcome.next hfill,
    congrArg (fun u : State => { u with genCount := s.genCount + 1, result := .unit }) hfilled.frame,
    fun i hi => hfilled.written i (Nat.zero_le i) (by omega), hfilled.otherBuffers⟩

end Sys2Proof.Machine
end

section
/-! SUPPORT. `STATUS`, reset and the choice of an agent (`30_encoding.md` R97, `60_exceptions.md` R281, R296,
`70_reset_and_hazards.md` R311): the layout as numbers, the configuration checks, which agents a choice can name, and from that
the statements. -/
namespace Sys2Proof.Machine

open Sys2Proof

/-! ## The layout of `STATUS` (R97) -/

theorem toNat_append_eq_add {m n : Nat} (x : BitVec m) (y : BitVec n) :
    (x ++ y).toNat = x.toNat * 2 ^ n + y.toNat := by
  rw [BitVec.toNat_append, ← Nat.shiftLeft_add_eq_or_of_lt y.isLt, Nat.shiftLeft_eq]

/-- Settles O47: each field adds its number at its position. -/
theorem statusLayout : Obligations.StatusLayout := by
  rintro ⟨fault, faultOp, underrun, clip⟩
  have hunder : (if underrun then 4096 else 0) = underrun.toNat * 4096 := by cases underrun <;> rfl
  have hclip : (if clip then 8192 else 0) = clip.toNat * 8192 := by cases clip <;> rfl
  simp only [Status.toWord, toNat_append_eq_add, BitVec.toNat_ofBool, hunder, hclip]
  change (((0 * 2 ^ 1 + clip.toNat) * 2 ^ 1 + underrun.toNat) * 2 ^ 8 + faultOp.toNat) * 2 ^ 4 + fault.toNat = _
  omega

/-! ## Taking a fault (R281, R282) -/

/-- Settles O48: `Status.record_eq` decides between the first fault and a later one. -/
theorem firstFaultIsRecorded : Obligations.FirstFaultIsRecorded := by
  intro c o s
  refine ⟨s.status.record c o, rfl, ?_⟩
  rcases s.status.record_eq c o with ⟨h0, hrecord⟩ | ⟨h0, hrecord⟩ <;> rw [hrecord]
  · exact ⟨rfl, rfl, fun h => absurd h0 h, fun _ => ⟨rfl, by cases c <;> rfl⟩⟩
  · exact ⟨rfl, rfl, fun _ => rfl, fun h => absurd h h0⟩

/-- Settles O42. -/
theorem schstepStopsAfterFault : Obligations.SchstepStopsAfterFault := by
  intro s hfault
  exact exec_schstep_of_not_enabled fun henabled => hfault (producerEnabled_iff.1 henabled).1

/-! ## Reset (R311) -/

/-- A `CLKDIV` word is reserved when its integer part is 0 or its low byte is not (R100 b). -/
theorem clkdivReserved_iff (w : BitVec 32) : clkdivReserved w = true ↔ w.toNat / 65536 = 0 ∨ w.toNat % 256 ≠ 0 := by
  have hint : clkInt w = 0 ↔ w.toNat / 65536 = 0 := by
    rw [← BitVec.toNat_inj, clkInt, BitVec.extractLsb'_toNat, Nat.shiftRight_eq_div_pow]
    change _ = 0 ↔ _
    omega
  have hlow : clkReserved w = 0 ↔ w.toNat % 256 = 0 := by
    rw [← BitVec.toNat_inj, clkReserved, BitVec.extractLsb'_toNat, Nat.shiftRight_zero]
    rfl
  rw [clkdivReserved, Bool.or_eq_true, decide_eq_true_iff, decide_eq_true_iff, hint, Ne, hlow]

/-- The configuration checks of reset, the seed first (R311). -/
theorem Status.ofConfig_cases (c : Config) :
    (c.rng = .xs64 ∧ c.seed = 0 → Status.ofConfig c = ⟨4, 0x10, false, false⟩) ∧
    (¬ (c.rng = .xs64 ∧ c.seed = 0) ∧ (c.clkdiv.toNat / 65536 = 0 ∨ c.clkdiv.toNat % 256 ≠ 0) →
      Status.ofConfig c = ⟨4, 0x70, false, false⟩) ∧
    (¬ (c.rng = .xs64 ∧ c.seed = 0) ∧ ¬ (c.clkdiv.toNat / 65536 = 0 ∨ c.clkdiv.toNat % 256 ≠ 0) →
      Status.ofConfig c = ⟨0, 0, false, false⟩) := by
  rw [← clkdivReserved_iff]
  refine ⟨fun hseed => if_pos hseed, fun ⟨hseed, hdiv⟩ => ?_, fun ⟨hseed, hdiv⟩ => ?_⟩
  · rw [Status.ofConfig, if_neg hseed, if_pos hdiv]
    rfl
  · rw [Status.ofConfig, if_neg hseed, if_neg hdiv]

theorem memRead_applyReset (s : State) (b : BufId) (i : Nat) :
    s.applyReset.memRead b i = Config.bufDraw s.applyReset.resetCount b i := by
  match b with
  | 0 | 1 | 2 => rfl

/-- Settles O52: the fields of `State.applyReset`, with the configuration checks read as numbers. -/
theorem resetGivesTheResetState : Obligations.ResetGivesTheResetState := by
  intro s
  refine ⟨s.applyReset.ret .unit, exec_reset s, rfl, fun hrng => ?_, fun hrng => ?_, rfl, rfl, memRead_applyReset s, rfl,
    fun b => ?_, fun k => ?_, rfl, rfl, rfl, rfl, rfl, rfl, rfl, rfl, Status.ofConfig_cases s.cfg⟩
  · simp only [State.ret_rngState, State.applyReset_rngState, hrng, rngInit]
  · simp only [State.ret_rngState, State.applyReset_rngState, hrng, rngInit]
  · match b with
    | 0 | 1 | 2 => rfl
  · match k with
    | 0 | 1 => rfl

/-- Settles O53. -/
theorem resetValues : Obligations.ResetValues := by
  unfold Obligations.ResetValues
  decide

theorem engineInv_reset : EngineInv State.reset := by
  rw [engineInv_iff_shape]
  refine ⟨.free, fun b => ?_⟩
  match b with
  | 0 | 1 | 2 => simp [State.reset, Three.get, Two.get, Slot.empty]

theorem storageInv_reset : StorageInv State.reset := by
  refine ⟨fun b => ?_, Nat.zero_le _⟩
  match b with
  | 0 | 1 | 2 => exact ⟨rfl, rfl⟩

/-- Settles O54. -/
theorem invariantsHoldAtReset : Obligations.InvariantsHoldAtReset :=
  ⟨engineInv_reset, storageInv_reset,
    ⟨engineInv_reset, storageInv_reset, ⟨rfl, rfl⟩, ⟨Config.default.bufWords.pos, fun _ => rfl⟩, .inl rfl⟩, by decide,
    ⟨rfl, rfl, rfl, rfl, rfl, rfl, rfl, rfl, rfl⟩, rfl⟩

/-! ## The choice of an agent (R296) -/

theorem mem_enabledAgents_iff (s : State) (a : Agent) : a ∈ s.enabledAgents ↔ s.enabled a = true := by
  rw [State.enabledAgents, List.mem_filter]
  cases a <;> simp

theorem sequencer_mem_enabledAgents (s : State) : Agent.sequencer ∈ s.enabledAgents :=
  (mem_enabledAgents_iff s .sequencer).2 rfl

theorem agentOf_eq_getElem {s : State} {k : Nat} (h : k % s.enabledAgents.length < s.enabledAgents.length) :
    s.agentOf k = s.enabledAgents[k % s.enabledAgents.length] := by
  rw [State.agentOf, List.getD_eq_getElem _ _ h]

theorem enabled_agentOf (s : State) (k : Nat) : s.enabled (s.agentOf k) = true := by
  have hlen := Nat.mod_lt k (List.length_pos_of_mem (sequencer_mem_enabledAgents s))
  rw [agentOf_eq_getElem hlen, ← mem_enabledAgents_iff]
  exact List.getElem_mem hlen

theorem exists_agentOf {s : State} {a : Agent} (h : s.enabled a = true) : ∃ k, s.agentOf k = a := by
  obtain ⟨k, hk, ha⟩ := List.mem_iff_getElem.1 ((mem_enabledAgents_iff s a).2 h)
  refine ⟨k, ?_⟩
  simp only [State.agentOf, Nat.mod_eq_of_lt hk, List.getD_eq_getElem _ _ hk, ha]

theorem runningSlot_isSome_iff (s : State) : s.runningSlot.isSome = true ↔ ∃ k, (s.slot.get k).st = .running := by
  rcases hrun : s.runningSlot with _ | k
  · exact iff_of_false (by simp) (not_exists.2 (runningSlot_none hrun))
  · exact iff_of_true rfl ⟨k, runningSlot_running hrun⟩

/-- Settles O60. -/
theorem stepTakesAnyEnabledAgent : Obligations.StepTakesAnyEnabledAgent := by
  refine ⟨fun s => step_of_program_nil, fun s a => ⟨exists_agentOf, ?_⟩, fun s => ?_, fun s => ?_, fun _ => rfl, rfl, rfl,
    rfl⟩
  · rintro ⟨k, rfl⟩
    exact enabled_agentOf s k
  · change s.producerEnabled = true ↔ _
    rw [producerEnabled_iff, State.waitHeld_iff]
  · change s.engineEnabled = true ↔ _
    rw [State.engineEnabled, Bool.and_eq_true, runningSlot_isSome_iff, decide_eq_true_iff]

end Sys2Proof.Machine
end

section
/-! SUPPORT. The scheduler's commands (`45_scheduler.md` R232 to R240): `SCHSTEP` in each command state, and beside the engine
command it issues. -/
namespace Sys2Proof.Machine

open Sys2Proof

/-! ## `SCHSTEP` in the command states -/

section
variable {s : State} (hfault : s.status.fault = 0)
include hfault

theorem exec_schstep_primeStart (hsch : s.sched.sch = .primeStart) : exec .schstep s = schStart s := by
  have henabled := producerEnabled_of_ne_primeWait hfault (by simp [hsch])
  simp only [exec_schstep, execSchstep, henabled, hsch, if_true]

theorem exec_schstep_primeNext1 (hsch : s.sched.sch = .primeNext1) : exec .schstep s = schNext 1 .primeFill2 s := by
  have henabled := producerEnabled_of_ne_primeWait hfault (by simp [hsch])
  simp only [exec_schstep, execSchstep, henabled, hsch, if_true]

theorem exec_schstep_primeNext2 (hsch : s.sched.sch = .primeNext2) : exec .schstep s = schNext 2 .runPoll s := by
  have henabled := producerEnabled_of_ne_primeWait hfault (by simp [hsch])
  simp only [exec_schstep, execSchstep, henabled, hsch, if_true]

theorem exec_schstep_runNext (hsch : s.sched.sch = .runNext) : exec .schstep s = schRunNext s := by
  have henabled := producerEnabled_of_ne_primeWait hfault (by simp [hsch])
  simp only [exec_schstep, execSchstep, henabled, hsch, if_true]

theorem exec_schstep_primeWait (hsch : s.sched.sch = .primeWait) (hwait : ¬ s.waitHeld = true) :
    exec .schstep s = schWait s := by
  have henabled : s.producerEnabled = true := producerEnabled_iff.2 ⟨hfault, fun h => hwait h.2⟩
  simp only [exec_schstep, execSchstep, henabled, hsch, if_true]

end

theorem exec_schstep_primeWait_held {s : State} (hsch : s.sched.sch = .primeWait) (hwait : s.waitHeld = true) :
    exec .schstep s = .next { s with result := .held } :=
  exec_schstep_of_not_enabled fun henabled => (producerEnabled_iff.1 henabled).2 ⟨hsch, hwait⟩

/-! ## The command beside the step that issues it -/

/-- `SCHSTEP` from `s`, which ends in `out`, does what the command that ended in `t` does: a result the command hands over leads
to `t` with the scheduler's registers `sched` and no result, a fault is the command's. -/
abbrev IssuesCommand (t : State) (out : Out) (sched : OpResult → Sched) : Prop :=
  ((¬ ∃ c, t.result = .fault c) → out = .next { t with sched := sched t.result, result := .unit }) ∧
  (∀ c, t.result = .fault c → out = .next t)

/-- Two operations that conclude the same computation fault alike, and complete alike but for what each adds. -/
theorem issuesCommand_of_conclude {α : Type} {s t : State} {x : Except Raise α} {f : α → OpResult × State}
    {sched : OpResult → Sched} {g : α → State} (hresult : ∀ a c, (f a).1 ≠ .fault c)
    (hg : ∀ a, x = .ok a → g a = { (f a).2 with sched := sched (f a).1 })
    (h : conclude s (x.map f) = .next t) : IssuesCommand t (conclude s (x.map fun a => (.unit, g a))) sched := by
  cases x with
  | ok a =>
    cases h
    refine ⟨fun _ => ?_, fun c hc => absurd hc (hresult a c)⟩
    rw [Except.map, conclude_ok, hg a rfl]
    rfl
  | error e =>
    cases h
    exact ⟨fun hne => absurd ⟨e.cause, rfl⟩ hne, fun _ _ => rfl⟩

theorem IssuesCommand.of_result {t : State} {out : Out} {sched : OpResult → Sched} {r : OpResult}
    (h : IssuesCommand t out sched) (hr : t.result = r) (hne : ∀ c, r ≠ .fault c) :
    out = .next { t with sched := sched r, result := .unit } := by
  have hout := h.1 fun ⟨c, hc⟩ => hne c (hr.symm.trans hc)
  rw [hout, hr]

/-- The buffer number or NONE that a result shows. -/
def OpResult.buffer? : OpResult → Option BufId
  | .buffer b => b
  | _ => none

theorem schStart_issues {s t : State} (h : exec (.dstart 0) s = .next t) :
    IssuesCommand t (schStart s) fun _ => { s.sched with sch := .primeFill1 } := by
  rw [exec_dstart] at h
  refine issuesCommand_of_conclude (fun _ _ => by simp) (fun u hu => ?_) h
  rw [(Command.start hu).frame]
  rfl

theorem schNext_issues {s t : State} {b : BufId} {n : Sch} (h : exec (.dnext b) s = .next t) :
    IssuesCommand t (schNext b n s) fun _ => { s.sched with sch := n } := by
  rw [exec_dnext] at h
  refine issuesCommand_of_conclude (fun _ _ => by simp) (fun p hp => ?_) h
  rw [(Command.next hp).frame]
  rfl

theorem schRunNext_issues {s t : State} {b : BufId} (hfree : s.sched.free = some b) (h : exec (.dnext b) s = .next t) :
    IssuesCommand t (schRunNext s) fun r => { s.sched with sch := .runPoll, free := OpResult.buffer? r } := by
  rw [exec_dnext] at h
  simp only [schRunNext, hfree]
  refine issuesCommand_of_conclude (fun _ _ => by simp) (fun p hp => ?_) h
  rw [(Command.next hp).frame]
  rfl

theorem schWait_issues {s t : State} (hwait : ¬ s.waitHeld = true) (h : exec .dwait s = .next t) :
    IssuesCommand t (schWait s) fun r => { s.sched with sch := .primeNext2, free := OpResult.buffer? r } := by
  rw [exec_dwait_of_not_held hwait] at h
  refine issuesCommand_of_conclude (fun _ _ => by simp) (fun p hp => ?_) h
  rw [(Command.wait hwait hp).frame]
  rfl

/-- A `DWAIT` that does not hold answers a buffer or a fault. -/
theorem result_ne_held {s t : State} (hwait : ¬ s.waitHeld = true) (h : exec .dwait s = .next t) : t.result ≠ .held := by
  rw [exec_dwait_of_not_held hwait] at h
  rcases conclude_map_next h with ⟨p, -, rfl⟩ | ⟨e, -, rfl⟩ <;> simp

/-- Settles O40: in each command state `SCHSTEP` concludes the engine command's own computation. -/
theorem schstepIssuesTheCommand : Obligations.SchstepIssuesTheCommand := by
  intro s t hfault
  refine ⟨fun hsch h => ?_, fun hsch h => ?_, fun hsch h => ?_, fun hsch h => ?_, fun b hsch hfree h => ?_⟩
  · rw [exec_schstep_primeStart hfault hsch]
    have hissue := schStart_issues h
    refine ⟨fun hr => ?_, hissue.2⟩
    rw [hissue.of_result hr (by simp), ← hr]
  · rw [exec_schstep_primeNext1 hfault hsch]
    have hissue := schNext_issues (n := .primeFill2) h
    exact ⟨fun r hr => hissue.of_result hr (by simp), hissue.2⟩
  · by_cases hwait : s.waitHeld = true
    · rw [exec_dwait_of_held hwait] at h
      cases h
      exact ⟨(fun _ hr => nomatch hr), fun _ => exec_schstep_primeWait_held hsch hwait, (fun _ hc => nomatch hc)⟩
    · rw [exec_schstep_primeWait hfault hsch hwait]
      have hissue := schWait_issues hwait h
      exact ⟨fun r hr => hissue.of_result hr (by simp), fun hheld => absurd hheld (result_ne_held hwait h), hissue.2⟩
  · rw [exec_schstep_primeNext2 hfault hsch]
    have hissue := schNext_issues (n := .runPoll) h
    exact ⟨fun r hr => hissue.of_result hr (by simp), hissue.2⟩
  · rw [exec_schstep_runNext hfault hsch]
    have hissue := schRunNext_issues hfree h
    exact ⟨fun r hr => hissue.of_result hr (by simp), hissue.2⟩

end Sys2Proof.Machine
end

section
/-! SUPPORT. The machine left to its own agents (`45_scheduler.md` R242, R243, `41_noise.md` R146): every step of an agent keeps
the random walk inside the boundary, and from every state of the pipeline's invariant completes and keeps the roles of the
buffers. -/
namespace Sys2Proof.Machine

open Sys2Proof

/-! ## The random walk (R22, R146) -/

theorem nextSample_keeps_noiseInv {s t : State} {y : FX} (hc : s.cfg.DefaultConstants) (hs : NoiseInv s)
    (h : s.nextSample = .ok (y, t)) : NoiseInv t := by
  obtain ⟨n, o, hbrown, hlo, hhi, -⟩ :=
    brownStep_of_inputDefaults (Config.DefaultConstants.inputDefaults hc) hs (rngNext s.rngState).2
  rcases nextSample_eq s with ⟨n', o', _, _, hbrown', -, he⟩ | ⟨-, he⟩ | ⟨_, _, -, -, he⟩ <;> rw [he] at h <;> cases h
  rw [hbrown] at hbrown'
  cases hbrown'
  exact ⟨hlo, hhi⟩

theorem fillWord_keeps_noiseInv {s t : State} {b : BufId} {i : Nat} (hc : s.cfg.DefaultConstants) (hs : NoiseInv s)
    (h : s.fillWord b i = .ok t) : NoiseInv t := by
  rcases fillWord_eq s b i with ⟨y, u, hsample, -, he⟩ | ⟨_, _, -, -, he⟩ | ⟨_, -, he⟩ <;> rw [he] at h <;> cases h
  have hu := nextSample_keeps_noiseInv hc hs hsample
  exact hu

theorem agent_keeps_noiseInv {s t : State} (hc : s.cfg.DefaultConstants) (hs : NoiseInv s) (a : Agent)
    (h : exec a.op s = .next t) : NoiseInv t := by
  cases a with
  | producer =>
    cases exec_schstep_step h with
    | fill _ hword =>
      have hu := fillWord_keeps_noiseInv hc hs hword
      exact hu
    | command hcommand =>
      rw [hcommand.frame]
      exact hs
    | registers | fault => exact hs
  | engine =>
    rw [(exec_dxfer_touches h).1]
    exact hs
  | sequencer =>
    cases h
    rw [s.tick_frame.1]
    exact hs

/-- Settles O12: SCHSTEP draws its samples by R146, and the other two agents leave `NOISE_STATE`. -/
theorem noiseBoundaryKeptByEveryStep : Obligations.NoiseBoundaryKeptByEveryStep := by
  intro s t hc hprogram hs h
  rw [step_of_program_nil hprogram] at h
  obtain ⟨hcfg, hkept, -⟩ := configurationNeverWritten _ _ _ h
  have hnoise := agent_keeps_noiseInv (s := { s with choices := s.choices + 1 }) hc hs _ h
  exact ⟨hnoise, by rw [hcfg]; exact hc, hkept.trans hprogram⟩

/-! ## The roles of the buffers (R242) -/

/-- What the pipeline's invariant says of the scheduler. -/
abbrev SchedulerInv (s : State) : Prop := RoleShape s ∧ FillIndex s ∧ OnlyExpectedFaults s

/-- An operation that completes from `s` in a state with the scheduler's part of the invariant. -/
abbrev Completes (out : Out) : Prop := ∃ t, out = .next t ∧ SchedulerInv t

/-- Every effect keeps the rest of the invariant, so an operation has to keep only the scheduler's part. -/
theorem exec_keeps_pipelineInv {i : Instr} {s : State} (hi : i ≠ .reset) (hs : PipelineInv s)
    (h : Completes (exec i s)) : ∃ t, exec i s = .next t ∧ PipelineInv t := by
  obtain ⟨hengine, hstorage, -⟩ := hs
  obtain ⟨t, hexec, hsched⟩ := h
  have heffect := exec_effect hi hexec
  exact ⟨t, hexec, heffect.engineInv hengine, heffect.storageInv hstorage, hsched⟩

theorem sqtick_completes {s : State} (hs : SchedulerInv s) : Completes (exec .sqtick s) := by
  refine ⟨_, exec_sqtick s, ?_⟩
  rw [s.tick_frame.1]
  exact hs

/-! ### `DXFER` -/

/-- A slot that is done stays done while the other moves a word. -/
theorem advanceSlots_done {s : State} {j k : Fin 2} (hk : (s.slot.get k).st = .running)
    (hother : (s.slot.get (1 - k)).st ≠ .running) (hj : (s.slot.get j).st = .done) :
    ((s.advanceSlots k).get j).st = .done := by
  rcases eq_or_eq_other k j with rfl | rfl
  · rw [hk] at hj
    cases hj
  · rw [advanceSlots_get_other hother, if_neg fun h => Slot.not_armed_of_done hj h.2, hj]

/-- The roles depend on the bound buffers, and on the oldest transfer's being done. -/
theorem roleShape_of_slots {s : State} {sl : Two Slot}
    (hbuf : ∀ j, (sl.get j).buf = (s.slot.get j).buf)
    (hdone : ∀ j, (s.slot.get j).st = .done → (sl.get j).st = .done) (hs : RoleShape s) :
    RoleShape { s with slot := sl } := by
  unfold RoleShape at hs ⊢
  simp only [hbuf]
  cases hsch : s.sched.sch <;> simp only [hsch] at hs ⊢
  case runFill | runNext =>
    obtain ⟨hcnt, hst, hroles⟩ := hs
    exact ⟨hcnt, hdone _ hst, hroles⟩
  all_goals exact hs

/-- Every shape of R206 binds a buffer to the slot that runs. -/
theorem exists_buf_of_running {s : State} {k : Fin 2} (hengine : EngineInv s) (hk : (s.slot.get k).st = .running) :
    ∃ b, (s.slot.get k).buf = some b := by
  obtain ⟨hshape, -⟩ := (engineInv_iff_shape s).1 hengine
  generalize s.cnt = cnt at hshape
  rcases eq_or_eq_other s.head k with rfl | rfl
  · generalize s.slot.get s.head = v at hshape hk ⊢
    generalize s.slot.get (1 - s.head) = w at hshape
    cases hshape with
    | running | runningArmed => exact ⟨_, rfl⟩
    | free | done | doneRunning | doneDone => cases hk
  · generalize s.slot.get s.head = v at hshape
    generalize s.slot.get (1 - s.head) = w at hshape hk ⊢
    cases hshape with
    | doneRunning => exact ⟨_, rfl⟩
    | free | running | done | runningArmed | doneDone => cases hk

/-- The running slot has a buffer and an index below N, so `DXFER` reads an address that exists. -/
theorem dxfer_completes {s : State} (hengine : EngineInv s) (hs : SchedulerInv s) : Completes (exec .dxfer s) := by
  obtain ⟨hroles, hrest⟩ := hs
  have ⟨_, _, _, _, _, _, hindex⟩ := hengine
  change Completes (execDxfer s)
  rcases execDxfer_eq s with ⟨-, he⟩ | ⟨k, b, hrun, -, -, -, he⟩ | ⟨k, hrun, -, hnone, -⟩ | ⟨k, hrun, -, hidx, -⟩
  · exact ⟨_, he, hroles, hrest⟩
  · have hk := runningSlot_running hrun
    have hother := other_not_running hengine hk
    have hroles' := roleShape_of_slots (advanceSlots_buf hk hother) (fun _ => advanceSlots_done hk hother) hroles
    exact ⟨_, he, hroles', hrest⟩
  · obtain ⟨b, hb⟩ := exists_buf_of_running hengine (runningSlot_running hrun)
    rw [hb] at hnone
    cases hnone
  · obtain ⟨-, hlt, -⟩ := hindex k
    exact absurd (hlt (runningSlot_running hrun)) hidx

/-! ### `SCHSTEP` in a fill state -/

/-- The producer owns a buffer that is bound to no slot (R206 item 6). -/
theorem owner_of_unbound {s : State} {b : BufId} (hengine : EngineInv s)
    (hhead : (s.slot.get s.head).buf ≠ some b) (hother : (s.slot.get (1 - s.head)).buf ≠ some b) :
    s.owner.get b = .P := by
  obtain ⟨-, howns⟩ := (engineInv_iff_shape s).1 hengine
  cases howner : s.owner.get b with
  | P => rfl
  | E => exact absurd ((howns b).1 howner) (not_or.2 ⟨hhead, hother⟩)

/-- With at most one transfer outstanding the other slot is empty (R206 item 4). -/
theorem other_buf_of_one {s : State} (hengine : EngineInv s) (hcnt : s.cnt = 1) :
    (s.slot.get s.head).st ≠ .idle ∧ (s.slot.get (1 - s.head)).buf = none := by
  obtain ⟨-, -, -, ⟨hone, -⟩, -⟩ := hengine
  obtain ⟨hst, hempty⟩ := hone hcnt
  exact ⟨hst, congrArg Slot.buf hempty⟩

/-- With nothing outstanding no buffer is bound (R206 item 4). -/
theorem owner_of_free {s : State} (hengine : EngineInv s) (hcnt : s.cnt = 0) (b : BufId) : s.owner.get b = .P := by
  have ⟨_, _, _, ⟨_, hnone⟩, _⟩ := hengine
  have hempty : ∀ k, s.slot.get k = Slot.empty := (forall_slot_iff_from_head 0).2 (hnone hcnt)
  exact owner_of_unbound hengine (by simp [hempty, Slot.empty]) (by simp [hempty, Slot.empty])

/-- With one transfer outstanding the producer owns every buffer but its own. -/
theorem owner_of_one {s : State} {b c : BufId} (hengine : EngineInv s) (hcnt : s.cnt = 1)
    (hbuf : (s.slot.get s.head).buf = some c) (hne : b ≠ c) : s.owner.get b = .P := by
  obtain ⟨-, hnone⟩ := other_buf_of_one hengine hcnt
  exact owner_of_unbound hengine (by simpa [hbuf] using hne.symm) (by simp [hnone])

/-- The buffer after `f` in the rotation 0, 1, 2, seen from the one that follows it. -/
theorem rotation_next (f : BufId) : f + 2 = f + 1 + 1 ∧ f = f + 1 + 2 := by
  revert f
  decide

/-- In the run loop the producer owns `FREE`. -/
theorem owner_of_rotation {s : State} {f : BufId} (hengine : EngineInv s)
    (hhead : (s.slot.get s.head).buf = some (f + 1)) (hother : (s.slot.get (1 - s.head)).buf = some (f + 2)) :
    s.owner.get f = .P := by
  exact owner_of_unbound hengine (by simp [hhead]) (by simp [hother])

/-- A fill state fills a buffer of the producer, and leads to a state with the same roles. -/
theorem fillState_role {s : State} {b : BufId} {n : Sch} (hengine : EngineInv s) (hs : RoleShape s)
    (hfill : fillStateOf s = some (b, n)) :
    s.owner.get b = .P ∧ RoleShape { s with sched := ⟨n, 0, s.sched.free⟩ } := by
  unfold RoleShape at hs
  cases hsch : s.sched.sch <;> simp only [fillStateOf, hsch, reduceCtorEq, Option.some.injEq, Prod.mk.injEq] at hs hfill
  case primeFill0 =>
    obtain ⟨rfl, rfl⟩ := hfill
    exact ⟨owner_of_free hengine hs.1 0, hs⟩
  case primeFill1 =>
    obtain ⟨rfl, rfl⟩ := hfill
    have ⟨hcnt, hhead, hbuf⟩ := hs
    exact ⟨owner_of_one hengine hcnt (hhead.symm ▸ hbuf) (by decide), hs⟩
  case primeFill2 =>
    obtain ⟨rfl, rfl⟩ := hfill
    have ⟨hcnt, hhead, hbuf, hbuf'⟩ := hs
    refine ⟨owner_of_unbound hengine ?_ ?_, hs⟩
    · rw [hhead, hbuf]
      decide
    · rw [hhead, show (1 : Fin 2) - 0 = 1 from rfl, hbuf']
      decide
  case runFill =>
    have ⟨hcnt, hdone, f, hfree, hhead, hother⟩ := hs
    rw [hfree] at hfill
    cases hfill
    exact ⟨owner_of_rotation hengine hhead hother, hs⟩

theorem fillIndex_of_zero {s : State} (h : s.sched.fillI = 0) : FillIndex s := by
  refine ⟨?_, fun _ => h⟩
  rw [h]
  exact s.cfg.bufWords.pos

/-- The next word of the same buffer (R231). -/
theorem fillIndex_succ {s : State} {b : BufId} {n : Sch} (hfill : fillStateOf s = some (b, n))
    (hs : s.sched.fillI < s.cfg.bufWords) (hmore : s.sched.fillI + 1 ≠ s.cfg.bufWords) :
    FillIndex { s with sched := { s.sched with fillI := s.sched.fillI + 1 } } := by
  refine ⟨by simp only; omega, fun ⟨h0, h1, h2, hr⟩ => ?_⟩
  cases hsch : s.sched.sch <;> simp [fillStateOf, hsch] at hfill h0 h1 h2 hr

/-- Fill steps of a producer-owned buffer fault in their sample only. -/
theorem fillWord_error_of_producer {s : State} {b : BufId} {i : Nat} {e : Raise} (hb : s.owner.get b = .P)
    (h : s.fillWord b i = .error e) : e.cause = .arithOverflow := by
  rcases hsample : s.nextSample with e' | ⟨y, t⟩
  · rw [fillWord_of_sample_error hsample] at h
    cases h
    rcases nextSample_eq s with ⟨_, _, _, _, -, -, he⟩ | ⟨-, he⟩ | ⟨_, _, -, -, he⟩ <;> rw [he] at hsample <;>
      cases hsample <;> rfl
  · have howner : t.owner = s.owner := by rw [nextSample_frame hsample]
    rw [fillWord_of_sample hsample, memWrite_of_producer (by simpa [howner] using hb)] at h
    cases h

theorem fillWord_fault {s t : State} {b : BufId} {i : Nat} (h : s.fillWord b i = .ok t) :
    t.status.fault = s.status.fault := by
  rcases fillWord_eq s b i with ⟨y, u, hsample, -, he⟩ | ⟨_, _, -, -, he⟩ | ⟨_, -, he⟩ <;> rw [he] at h <;> cases h
  rw [nextSample_frame hsample]
  rfl

theorem fill_completes {s : State} {b : BufId} {n : Sch} (hengine : EngineInv s) (hs : SchedulerInv s)
    (hfault : s.status.fault = 0) (hfill : fillStateOf s = some (b, n)) : Completes (exec .schstep s) := by
  obtain ⟨hroles, hindex, -⟩ := hs
  obtain ⟨howner, hnext⟩ := fillState_role hengine hroles hfill
  rw [exec_schstep_of_fillState hfill hfault hindex.1]
  rcases hword : s.fillWord b s.sched.fillI with e | u
  · refine ⟨_, rfl, hroles, hindex, .inr (.inl ?_)⟩
    rw [State.takeFault_status, Status.record, if_pos hfault, fillWord_error_of_producer howner hword]
  · refine ⟨_, rfl, ?_⟩
    have hframe := fillWord_frame hword
    have hstatus : u.status.fault = 0 := (fillWord_fault hword).trans hfault
    rw [advanceFill_of_fillWord hword, hframe]
    split
    · exact ⟨hnext, fillIndex_of_zero rfl, .inl hstatus⟩
    · exact ⟨hroles, fillIndex_succ hfill hindex.1 ‹_›, .inl hstatus⟩

/-! ### `SCHSTEP` in a command state -/

/-- After a completed command the scheduler's part of the invariant is the new role. -/
theorem schedulerInv_of_role {s : State} (hroles : RoleShape s) (hindex : s.sched.fillI = 0) (hfault : s.status.fault = 0) :
    SchedulerInv s := ⟨hroles, fillIndex_of_zero hindex, .inl hfault⟩

theorem startTransfer_of_free {s : State} {b : BufId} (hcnt : s.cnt = 0) (hb : s.owner.get b = .P) :
    s.startTransfer b = .ok { s with
      owner := s.owner.set b .E, slot := s.slot.set s.head ⟨.running, some b, 0⟩, cnt := 1 } := by
  simp [State.startTransfer, State.setOwner, State.setSlot, hcnt, hb]

theorem runPoll_completes {s : State} (hroles : RoleShape s) (hindex : s.sched.fillI = 0) (hfault : s.status.fault = 0)
    (hsch : s.sched.sch = .runPoll) : Completes (exec .schstep s) := by
  simp only [RoleShape, hsch] at hroles
  obtain ⟨hcnt, hrotation⟩ := hroles
  rw [exec_schstep_runPoll hfault hsch, schPoll_eq hsch]
  refine ⟨_, rfl, schedulerInv_of_role ?_ hindex hfault⟩
  split
  case isTrue hdone => exact ⟨hcnt, (s.isDone_iff.1 hdone).2, hrotation⟩
  case isFalse => exact ⟨hcnt, hrotation⟩

theorem primeWait_completes {s : State} (hroles : RoleShape s) (hindex : s.sched.fillI = 0) (hfault : s.status.fault = 0)
    (hsch : s.sched.sch = .primeWait) (hwait : ¬ s.waitHeld = true) : Completes (exec .schstep s) := by
  simp only [RoleShape, hsch] at hroles
  obtain ⟨hcnt, hhead, hbuf, hbuf'⟩ := hroles
  have hreclaim := reclaim_of_some (s := s) (by simp [hcnt])
  rw [exec_schstep_primeWait hfault hsch hwait, schWait, hreclaim]
  refine ⟨_, rfl, schedulerInv_of_role ⟨?_, ?_, ?_, ?_⟩ hindex hfault⟩
  · exact congrArg (· - 1) hcnt
  · simp [hhead]
  · simp [hhead, Two.get_set, hbuf']
  · simp [hhead, hbuf]

section
variable {s : State} (hengine : EngineInv s) (hroles : RoleShape s) (hindex : s.sched.fillI = 0)
  (hfault : s.status.fault = 0)
include hengine hroles hindex hfault

theorem primeStart_completes (hsch : s.sched.sch = .primeStart) : Completes (exec .schstep s) := by
  simp only [RoleShape, hsch] at hroles
  obtain ⟨hcnt, hhead⟩ := hroles
  have hstart := startTransfer_of_free hcnt (owner_of_free hengine hcnt 0)
  rw [exec_schstep_primeStart hfault hsch, schStart, hstart]
  refine ⟨_, rfl, schedulerInv_of_role ⟨rfl, hhead, ?_⟩ hindex hfault⟩
  simp [hhead]

theorem primeNext1_completes (hsch : s.sched.sch = .primeNext1) : Completes (exec .schstep s) := by
  simp only [RoleShape, hsch] at hroles
  obtain ⟨hcnt, hhead, hbuf⟩ := hroles
  obtain ⟨hst, -⟩ := other_buf_of_one hengine hcnt
  have howner : s.owner.get 1 = .P := owner_of_one hengine hcnt (hhead.symm ▸ hbuf) (by decide)
  have hnext := nextTransfer_of_one hcnt howner hst
  rw [exec_schstep_primeNext1 hfault hsch, schNext, hnext]
  refine ⟨_, rfl, schedulerInv_of_role ⟨rfl, hhead, ?_, ?_⟩ hindex hfault⟩
  · simp [hhead, Two.get_set, hbuf]
  · simp [hhead]

theorem primeNext2_completes (hsch : s.sched.sch = .primeNext2) : Completes (exec .schstep s) := by
  simp only [RoleShape, hsch] at hroles
  obtain ⟨hcnt, hhead, hbuf, hfree⟩ := hroles
  obtain ⟨hst, -⟩ := other_buf_of_one hengine hcnt
  have howner : s.owner.get 2 = .P := owner_of_one hengine hcnt (hhead.symm ▸ hbuf) (by decide)
  have hnext := nextTransfer_of_one hcnt howner hst
  rw [exec_schstep_primeNext2 hfault hsch, schNext, hnext]
  refine ⟨_, rfl, schedulerInv_of_role ⟨rfl, 0, hfree, ?_, ?_⟩ hindex hfault⟩
  · simp [hhead, Two.get_set, hbuf]
  · simp [hhead]

theorem runNext_completes (hsch : s.sched.sch = .runNext) : Completes (exec .schstep s) := by
  simp only [RoleShape, hsch] at hroles
  obtain ⟨hcnt, hdone, f, hfree, hhead, hother⟩ := hroles
  have hst : (s.slot.get (1 - s.head)).st ≠ .idle := by
    obtain ⟨-, -, -, -, hpair, -⟩ := hengine
    rcases hpair hcnt with ⟨h, -⟩ | ⟨-, h⟩ | ⟨-, h⟩
    · rw [hdone] at h
      cases h
    · simp [h]
    · simp [h]
  have hnext := nextTransfer_of_two hcnt (owner_of_rotation hengine hhead hother) hdone hst
  obtain ⟨hnew, hold⟩ := rotation_next f
  simp only [exec_schstep_runNext hfault hsch, schRunNext, hfree, hnext]
  refine ⟨_, rfl, schedulerInv_of_role ⟨hcnt, f + 1, hhead, ?_, ?_⟩ hindex hfault⟩
  · simpa [hnew] using hother
  · simpa using hold

end

/-- Every step of the PRODUCER completes: it holds, fills one word, or performs its command. -/
theorem schstep_completes {s : State} (hengine : EngineInv s) (hs : SchedulerInv s) : Completes (exec .schstep s) := by
  by_cases henabled : s.producerEnabled = true
  case neg => exact ⟨_, exec_schstep_of_not_enabled henabled, hs⟩
  obtain ⟨hfault, hwait⟩ := producerEnabled_iff.1 henabled
  have ⟨hroles, ⟨_, hzero⟩, _⟩ := hs
  cases hsch : s.sched.sch
  case primeFill0 | primeFill1 | primeFill2 => exact fill_completes hengine hs hfault (by simp only [fillStateOf, hsch]; rfl)
  case runFill =>
    have hfree : ∃ f, s.sched.free = some f := by
      simp only [RoleShape, hsch] at hroles
      obtain ⟨-, -, f, hf, -⟩ := hroles
      exact ⟨f, hf⟩
    obtain ⟨f, hf⟩ := hfree
    exact fill_completes hengine hs hfault (b := f) (n := .runNext) (by simp only [fillStateOf, hsch, hf, Option.map_some])
  all_goals have hindex := hzero (by simp [hsch])
  case primeStart => exact primeStart_completes hengine hroles hindex hfault hsch
  case primeNext1 => exact primeNext1_completes hengine hroles hindex hfault hsch
  case primeWait => exact primeWait_completes hroles hindex hfault hsch fun h => hwait ⟨hsch, h⟩
  case primeNext2 => exact primeNext2_completes hengine hroles hindex hfault hsch
  case runPoll => exact runPoll_completes hroles hindex hfault hsch
  case runNext => exact runNext_completes hengine hroles hindex hfault hsch

/-! ## The machine left to its agents -/

theorem agent_completes {s : State} (hs : PipelineInv s) (a : Agent) : Completes (exec a.op s) := by
  have ⟨hengine, _, hsched⟩ := hs
  cases a with
  | producer => exact schstep_completes hengine hsched
  | engine => exact dxfer_completes hengine hsched
  | sequencer => exact sqtick_completes hsched

theorem Agent.op_ne_reset (a : Agent) : a.op ≠ .reset := by cases a <;> decide

/-- Settles O43: whichever agent the choice names, its operation completes and keeps every part of the invariant. -/
theorem pipelineRunsForEver : Obligations.PipelineRunsForEver := by
  intro s hs hprogram
  rw [step_of_program_nil hprogram]
  generalize s.agentOf (Config.schedule s.choices) = a
  have hs' : PipelineInv { s with choices := s.choices + 1 } := hs
  obtain ⟨t, hexec, ht⟩ := exec_keeps_pipelineInv a.op_ne_reset hs' (agent_completes hs' a)
  obtain ⟨hcfg, hkept, -⟩ := configurationNeverWritten _ _ _ hexec
  exact ⟨t, hexec, ht, hkept.trans hprogram, hcfg⟩

end Sys2Proof.Machine
end
